-- ==== Sys2Proof/Word.lean ====
section
/-! DEFINITION. The word types of the byte layouts: a byte, and the big-endian words built from bytes (spec R196). -/

namespace Sys2Proof

/-- One byte on the SPI port or on ORDER_RX. -/
abbrev Byte := BitVec 8

/-- A u16 or i16 field of a frame. -/
abbrev Half := BitVec 16

/-- A u32 or i32 field of a frame. -/
abbrev Word := BitVec 32

end Sys2Proof
end

