-- ==== Sys2Proof/Config.lean ====
section
/-! DEFINITION. What the spec leaves free. One value only: the admission sequence number that follows the largest one. -/

namespace Sys2Proof.Config

/-- FREE VALUE (log 1). R50 increments last_seq by 1 and the field ends at 4,294,967,295: the spec states no result for the
increment at that value. The k-th such increment gives this value, of which nothing is known but its 32 bits. -/
opaque seqAfterMax : Nat → BitVec 32

end Sys2Proof.Config
end

