-- ==== Sys2Proof/Syntax.lean ====
section
/-! DEFINITION. The commands of the CV72: one constructor of Instr for each row of spec/opcode_table.json, with the names of
trains, stores, timers, directions and clients that the commands and the state share. -/

namespace Sys2Proof

/-- The seven trains (spec 00 Conventions, R99): compressors C0 to C3 are indices 0 to 3, expanders E0 to E2 indices 4 to 6. -/
inductive TrainIx where
  | c0 | c1 | c2 | c3 | e0 | e1 | e2
deriving DecidableEq, Repr

/-- The three heat stores (R28). -/
inductive StoreIx where
  | hs0 | hs1 | hs2
deriving DecidableEq, Repr

/-- The two sides of the plant: the compressors are the charge side, the expanders the discharge side. -/
inductive Side where
  | charge | discharge
deriving DecidableEq, Repr

/-- The directions of an activation, and the two activation records (R153). -/
inductive Dir where
  | up | down
deriving DecidableEq, Repr

/-- The two heater cycle timers (R99). -/
inductive CycleTimer where
  | a | b
deriving DecidableEq, Repr

/-- One value for each train. -/
structure PerTrain (α : Type) where
  c0 : α
  c1 : α
  c2 : α
  c3 : α
  e0 : α
  e1 : α
  e2 : α
deriving DecidableEq, Repr

/-- One value for each heat store. -/
structure PerStore (α : Type) where
  hs0 : α
  hs1 : α
  hs2 : α
deriving DecidableEq, Repr

/-- The seven trains in index order. -/
def TrainIx.all : List TrainIx := [.c0, .c1, .c2, .c3, .e0, .e1, .e2]

/-- The three stores in index order. -/
def StoreIx.all : List StoreIx := [.hs0, .hs1, .hs2]

/-- The kind of a train is fixed by its index (R99). -/
def TrainIx.side : TrainIx → Side
  | .c0 | .c1 | .c2 | .c3 => .charge
  | .e0 | .e1 | .e2 => .discharge

/-- The trains of a side, in index order. -/
def Side.trains : Side → List TrainIx
  | .charge => [.c0, .c1, .c2, .c3]
  | .discharge => [.e0, .e1, .e2]

def Side.other : Side → Side
  | .charge => .discharge
  | .discharge => .charge

def Dir.opposite : Dir → Dir
  | .up => .down
  | .down => .up

/-- The side whose entries, trains and energy belong to an activation's direction (spec 03, R46). -/
def Dir.side : Dir → Side
  | .up => .discharge
  | .down => .charge

section
variable {α : Type}

def PerTrain.get (p : PerTrain α) : TrainIx → α
  | .c0 => p.c0 | .c1 => p.c1 | .c2 => p.c2 | .c3 => p.c3
  | .e0 => p.e0 | .e1 => p.e1 | .e2 => p.e2

def PerTrain.set (p : PerTrain α) (t : TrainIx) (v : α) : PerTrain α :=
  match t with
  | .c0 => { p with c0 := v } | .c1 => { p with c1 := v } | .c2 => { p with c2 := v } | .c3 => { p with c3 := v }
  | .e0 => { p with e0 := v } | .e1 => { p with e1 := v } | .e2 => { p with e2 := v }

def PerTrain.map {β : Type} (f : α → β) (p : PerTrain α) : PerTrain β :=
  ⟨f p.c0, f p.c1, f p.c2, f p.c3, f p.e0, f p.e1, f p.e2⟩

/-- The value of each train computed from its index. -/
def PerTrain.ofFn (f : TrainIx → α) : PerTrain α :=
  ⟨f .c0, f .c1, f .c2, f .c3, f .e0, f .e1, f .e2⟩

def PerTrain.toList (p : PerTrain α) : List α := [p.c0, p.c1, p.c2, p.c3, p.e0, p.e1, p.e2]

def PerStore.get (p : PerStore α) : StoreIx → α
  | .hs0 => p.hs0 | .hs1 => p.hs1 | .hs2 => p.hs2

def PerStore.set (p : PerStore α) (i : StoreIx) (v : α) : PerStore α :=
  match i with
  | .hs0 => { p with hs0 := v } | .hs1 => { p with hs1 := v } | .hs2 => { p with hs2 := v }

def PerStore.ofFn (f : StoreIx → α) : PerStore α := ⟨f .hs0, f .hs1, f .hs2⟩

end

/-- The originator named in a request frame (spec 00 Terms, R185). -/
inductive Client where
  | plant | trading
deriving DecidableEq, Repr

/-- What a request frame says before its arguments: the client, and how many payload bytes the frame carries, LEN − 2
(R197, R200). -/
structure Head where
  client : Client
  len : Nat
deriving DecidableEq, Repr

/-- The three checks of R185, by the one that fails first. -/
inductive FrameFault where
  | length | crc | client
deriving DecidableEq, Repr

/-- The requests of the port (R186, R197): what a CODE byte may name. -/
inductive Request where
  | identify | notices | noticeMaskSet | noticeMaskClear | restart
  | postReading | readAccount | rebase | excursionClear
  | storeService | storeSet | readStore
  | admitEntry | amend | withdraw | settle | queryEntry | findInterval | findReference
  | projectionState | readProjection | readNext
  | trainService | trainReset | trainUnlock | trainPriority | heaterAssign | heaterTimer | readTrain
  | patternWrite | patternRead | orderState | orderRelease
  | clockSet | clockRead
  | paramWrite | paramRead | lockLimits | supervisionSet | keepalive | forceExpiry | resume | recover | enterHold | enterSafe
deriving DecidableEq, Repr

/-- One block's response to a second event or to a boundary event. -/
inductive Part where
  | accountSecond | storesSecond | trainsSecond | dispatchSecond | ordersSecond | supervisionSecond | clockSecond
  | accountClose | storesLoss | tableBoundary | dispatchClose | ordersBoundary | trainsDay | projectionBoundary
deriving DecidableEq, Repr

/-- How the blocks respond to one event. Spec 00 ("How the blocks meet") gives no device-wide order in which they respond, and R12,
R20, R32, R38, R69, R90, R101, R132, R146, R154, R162 say that either order may be taken: the command carries the order (log 2), and
which responses come later, so that other commands fall between (log 24). -/
structure Schedule where
  order : List Part
  later : List Part
deriving DecidableEq, Repr

/-- R1: the two causes that hold the part in power-on reset: the supply below its working level, and nRST asserted. -/
structure ResetPins where
  supplyLow : Bool
  nrst : Bool
deriving DecidableEq, Repr

/-- What the pins show at a power-on reset: its two causes (R1), and the levels of TRIP0 to TRIP6 (R100). -/
structure ResetLines where
  causes : ResetPins
  trip : PerTrain Bool
deriving DecidableEq, Repr

/-- POST_READING's payload (R198): pressure i32 kPa, temperature i16 dK, seven powers i32 kW. -/
structure ReadingArgs where
  pressure : Word
  temperature : Half
  powers : PerTrain Word
deriving DecidableEq, Repr

/-- ADMIT's payload (R198). -/
structure AdmitArgs where
  kind : Byte
  first : Word
  span : Byte
  power : Word
  price : Word
  reference : Half
deriving DecidableEq, Repr

/-- AMEND's payload (R198): the field set names power (bit 0), price (bit 1) and reference (bit 2). -/
structure AmendArgs where
  id : Half
  fields : Byte
  power : Word
  price : Word
  reference : Half
deriving DecidableEq, Repr

/-- PATTERN_WRITE's payload (R198): an index and every field of the pattern. -/
structure PatternArgs where
  index : Byte
  enabled : Byte
  codeA : Byte
  maskA : Byte
  codeB : Byte
  maskB : Byte
  action : Byte
  releaseMode : Byte
  hold : Half
  partner : Byte
  confirm : Byte
  confirmWindow : Byte
deriving DecidableEq, Repr

/-- SUPERVISION_SET's payload (R204). -/
structure SupervisionArgs where
  timeout : Byte
  window : Byte
  anyRequest : Byte
  reading : Byte
  escalation : Byte
deriving DecidableEq, Repr

/-- The commands: one constructor for each row of spec/opcode_table.json, in the table's order. The autonomous events come
first, then the requests with the fields that R198 and R204 lay out (as the frame carries them, not yet judged), then the three
fates of a frame that is no such request. -/
inductive Instr where
  /-- R1: the reset causes as they now stand, and the levels of TRIP0 to TRIP6, which count when the reset ends (R100). -/
  | powerOnReset (lines : ResetLines)
  /-- R128: the order in which the blocks respond (log 2), and the responses that are put off (log 24). -/
  | secondEvent (how : Schedule)
  | readingStale
  | startingExpiry (t : TrainIx)
  | readyMaxExpiry (t : TrainIx)
  | stopTimeExpiry (t : TrainIx)
  | minDownExpiry (t : TrainIx)
  | hotWindowExpiry (t : TrainIx)
  | heaterCycleWrap (timer : CycleTimer)
  | confirmWindowExpiry (d : Dir)
  | holdExpiry (d : Dir)
  | supervisionExpiry
  | boundary (how : Schedule)
  | fullWalkComplete
  | trialWalkComplete
  | syncPulse (how : Schedule)
  | tripAssertion (t : TrainIx)
  | tripRelease (t : TrainIx)
  | orderByte (value : Byte) (framingError : Bool)
  | telegramGapTimeout
  | identify (h : Head)
  | notices (h : Head) (clear : Half)
  | noticeMaskSet (h : Head) (set : Half)
  | noticeMaskClear (h : Head) (set : Half)
  | restart (h : Head)
  | postReading (h : Head) (a : ReadingArgs)
  | readAccount (h : Head)
  | rebase (h : Head)
  | excursionClear (h : Head) (side : Byte)
  | storeService (h : Head) (index direction : Byte)
  | storeSet (h : Head) (index : Byte) (content : Word)
  | readStore (h : Head) (index : Byte)
  | admitEntry (h : Head) (a : AdmitArgs)
  | amend (h : Head) (a : AmendArgs)
  | withdraw (h : Head) (id : Half)
  | settle (h : Head) (id : Half)
  | queryEntry (h : Head) (id : Half)
  | findInterval (h : Head) (n resumeFirst resumeSeq : Word)
  | findReference (h : Head) (tag : Half) (resumeFirst resumeSeq : Word)
  | projectionState (h : Head)
  | readProjection (h : Head) (row count reload view : Byte)
  | readNext (h : Head)
  | trainService (h : Head) (index direction : Byte)
  | trainReset (h : Head) (index : Byte)
  | trainUnlock (h : Head) (index : Byte)
  | trainPriority (h : Head) (side : Byte) (order : List Byte)
  | heaterAssign (h : Head) (index heater : Byte)
  | heaterTimer (h : Head) (timer : Byte) (period onTime : Half)
  | readTrain (h : Head) (index : Byte)
  | patternWrite (h : Head) (a : PatternArgs)
  | patternRead (h : Head) (index : Byte)
  | orderState (h : Head)
  | orderRelease (h : Head) (direction : Byte)
  | clockSet (h : Head) (n : Word) (dayPos seconds : Half)
  | clockRead (h : Head)
  | paramWrite (h : Head) (index : Byte) (value : Word)
  | paramRead (h : Head) (index : Byte)
  | lockLimits (h : Head)
  | supervisionSet (h : Head) (a : SupervisionArgs)
  | keepalive (h : Head)
  | forceExpiry (h : Head)
  | resume (h : Head)
  | recover (h : Head)
  | enterHold (h : Head)
  | enterSafe (h : Head)
  | frameWrittenWhileBusy
  | frameFailingChecks (check : FrameFault)
  | unknownRequest (client : Client) (code : Byte)
deriving DecidableEq, Repr

/-- The request a command makes and its head, for the commands that are requests. -/
def Instr.request? : Instr → Option (Request × Head)
  | .powerOnReset _ | .secondEvent _ | .readingStale | .startingExpiry _ | .readyMaxExpiry _ | .stopTimeExpiry _
  | .minDownExpiry _ | .hotWindowExpiry _ | .heaterCycleWrap _ | .confirmWindowExpiry _ | .holdExpiry _
  | .supervisionExpiry | .boundary _ | .fullWalkComplete | .trialWalkComplete | .syncPulse _ | .tripAssertion _
  | .tripRelease _ | .orderByte _ _ | .telegramGapTimeout | .frameWrittenWhileBusy | .frameFailingChecks _
  | .unknownRequest _ _ => none
  | .identify h => some (.identify, h)
  | .notices h _ => some (.notices, h)
  | .noticeMaskSet h _ => some (.noticeMaskSet, h)
  | .noticeMaskClear h _ => some (.noticeMaskClear, h)
  | .restart h => some (.restart, h)
  | .postReading h _ => some (.postReading, h)
  | .readAccount h => some (.readAccount, h)
  | .rebase h => some (.rebase, h)
  | .excursionClear h _ => some (.excursionClear, h)
  | .storeService h _ _ => some (.storeService, h)
  | .storeSet h _ _ => some (.storeSet, h)
  | .readStore h _ => some (.readStore, h)
  | .admitEntry h _ => some (.admitEntry, h)
  | .amend h _ => some (.amend, h)
  | .withdraw h _ => some (.withdraw, h)
  | .settle h _ => some (.settle, h)
  | .queryEntry h _ => some (.queryEntry, h)
  | .findInterval h _ _ _ => some (.findInterval, h)
  | .findReference h _ _ _ => some (.findReference, h)
  | .projectionState h => some (.projectionState, h)
  | .readProjection h _ _ _ _ => some (.readProjection, h)
  | .readNext h => some (.readNext, h)
  | .trainService h _ _ => some (.trainService, h)
  | .trainReset h _ => some (.trainReset, h)
  | .trainUnlock h _ => some (.trainUnlock, h)
  | .trainPriority h _ _ => some (.trainPriority, h)
  | .heaterAssign h _ _ => some (.heaterAssign, h)
  | .heaterTimer h _ _ _ => some (.heaterTimer, h)
  | .readTrain h _ => some (.readTrain, h)
  | .patternWrite h _ => some (.patternWrite, h)
  | .patternRead h _ => some (.patternRead, h)
  | .orderState h => some (.orderState, h)
  | .orderRelease h _ => some (.orderRelease, h)
  | .clockSet h _ _ _ => some (.clockSet, h)
  | .clockRead h => some (.clockRead, h)
  | .paramWrite h _ _ => some (.paramWrite, h)
  | .paramRead h _ => some (.paramRead, h)
  | .lockLimits h => some (.lockLimits, h)
  | .supervisionSet h _ => some (.supervisionSet, h)
  | .keepalive h => some (.keepalive, h)
  | .forceExpiry h => some (.forceExpiry, h)
  | .resume h => some (.resume, h)
  | .recover h => some (.recover, h)
  | .enterHold h => some (.enterHold, h)
  | .enterSafe h => some (.enterSafe, h)

end Sys2Proof
end

