-- ==== Sys2Proof/Decode.lean ====
section
/-! DEFINITION. The frame decoder and its encoder: request codes and payload lengths (R197, R198, R200, R204), CRC-8 (R185,
R197), the fields of a payload (R196), and the command a written frame makes. opcode_table.json gives its rows no bits, so
decodeTableWord spells none (log 4). -/

namespace Sys2Proof

/-- The command that a word spells by the bits of opcode_table.json: the table gives none (log 4). -/
def decodeTableWord (_nbits _w : Nat) : Option Instr := none

/-! ### Request codes (R197) -/

/-- The CODE byte of each request. -/
def Request.code : Request → Byte
  | .identify => 0x01 | .notices => 0x02 | .noticeMaskSet => 0x03 | .noticeMaskClear => 0x04 | .restart => 0x05
  | .postReading => 0x10 | .readAccount => 0x11 | .rebase => 0x12 | .excursionClear => 0x13
  | .storeService => 0x18 | .storeSet => 0x19 | .readStore => 0x1A
  | .admitEntry => 0x20 | .amend => 0x21 | .withdraw => 0x22 | .settle => 0x23 | .queryEntry => 0x24
  | .findInterval => 0x25 | .findReference => 0x26
  | .projectionState => 0x28 | .readProjection => 0x29 | .readNext => 0x2A
  | .trainService => 0x30 | .trainReset => 0x31 | .trainUnlock => 0x32 | .trainPriority => 0x33
  | .heaterAssign => 0x34 | .heaterTimer => 0x35 | .readTrain => 0x36
  | .patternWrite => 0x38 | .patternRead => 0x39 | .orderState => 0x3A | .orderRelease => 0x3B
  | .clockSet => 0x40 | .clockRead => 0x41
  | .paramWrite => 0x48 | .paramRead => 0x49 | .lockLimits => 0x4A | .supervisionSet => 0x4B | .keepalive => 0x4C
  | .forceExpiry => 0x4D | .resume => 0x4E | .recover => 0x4F | .enterHold => 0x50 | .enterSafe => 0x51

/-- Every request, in the order of the code table. -/
def Request.all : List Request :=
  [.identify, .notices, .noticeMaskSet, .noticeMaskClear, .restart,
   .postReading, .readAccount, .rebase, .excursionClear,
   .storeService, .storeSet, .readStore,
   .admitEntry, .amend, .withdraw, .settle, .queryEntry, .findInterval, .findReference,
   .projectionState, .readProjection, .readNext,
   .trainService, .trainReset, .trainUnlock, .trainPriority, .heaterAssign, .heaterTimer, .readTrain,
   .patternWrite, .patternRead, .orderState, .orderRelease,
   .clockSet, .clockRead,
   .paramWrite, .paramRead, .lockLimits, .supervisionSet, .keepalive, .forceExpiry, .resume, .recover, .enterHold,
   .enterSafe]

/-- The request a CODE byte names, if it names one. -/
def Request.ofCode (b : Byte) : Option Request := Request.all.find? fun r => r.code == b

/-- R200: whether a payload length is the one the request's layout gives (R198, R204); TRAIN_PRIORITY's is 2..5. -/
def Request.lengthOk : Request → Nat → Bool
  | .identify, n | .restart, n | .readAccount, n | .rebase, n | .projectionState, n | .readNext, n | .orderState, n
  | .clockRead, n | .lockLimits, n | .keepalive, n | .forceExpiry, n | .resume, n | .recover, n | .enterHold, n
  | .enterSafe, n => n == 0
  | .excursionClear, n | .readStore, n | .trainReset, n | .trainUnlock, n | .readTrain, n | .patternRead, n
  | .orderRelease, n | .paramRead, n => n == 1
  | .notices, n | .noticeMaskSet, n | .noticeMaskClear, n | .storeService, n | .withdraw, n | .settle, n | .queryEntry, n
  | .trainService, n | .heaterAssign, n => n == 2
  | .readProjection, n => n == 4
  | .storeSet, n | .heaterTimer, n | .paramWrite, n | .supervisionSet, n => n == 5
  | .clockSet, n => n == 8
  | .findReference, n => n == 10
  | .findInterval, n => n == 12
  | .amend, n | .patternWrite, n => n == 13
  | .admitEntry, n => n == 16
  | .postReading, n => n == 34
  | .trainPriority, n => decide (2 ≤ n) && decide (n ≤ 5)

/-! ### CRC-8 (R185, R197): x^8 + x^2 + x + 1, initial value 0, most significant bit first -/

/-- One bit of the division. -/
def crcBit (c : Byte) : Byte := if c.msb then (c <<< 1) ^^^ 0x07#8 else c <<< 1

/-- One byte taken into the CRC. -/
def crcByte (c b : Byte) : Byte := crcBit (crcBit (crcBit (crcBit (crcBit (crcBit (crcBit (crcBit (c ^^^ b))))))))

/-- The CRC-8 of a run of bytes. -/
def crc8 (bs : List Byte) : Byte := bs.foldl crcByte 0

/-! ### Fields (R196): most significant byte first -/

/-- The u8 field at offset i of a payload. -/
def fieldByte (p : List Byte) (i : Nat) : Byte := p.getD i 0

/-- The 16-bit field at offset i. -/
def fieldHalf (p : List Byte) (i : Nat) : Half := fieldByte p i ++ fieldByte p (i + 1)

/-- The 32-bit field at offset i. -/
def fieldWord (p : List Byte) (i : Nat) : Word := fieldHalf p i ++ fieldHalf p (i + 2)

/-- The bytes of a 16-bit field. -/
def halfBytes (v : Half) : List Byte := [v.extractLsb' 8 8, v.extractLsb' 0 8]

/-- The bytes of a 32-bit field. -/
def wordBytes (v : Word) : List Byte := halfBytes (v.extractLsb' 16 16) ++ halfBytes (v.extractLsb' 0 16)

/-! ### Payloads (R198, R204) -/

/-- The command of a request whose payload is p: each field is read where its layout puts it. A field that a payload of another
length does not reach reads as 0, and is never judged, since R200 refuses that length first. -/
def commandOf (r : Request) (h : Head) (p : List Byte) : Instr :=
  match r with
  | .identify => .identify h
  | .notices => .notices h (fieldHalf p 0)
  | .noticeMaskSet => .noticeMaskSet h (fieldHalf p 0)
  | .noticeMaskClear => .noticeMaskClear h (fieldHalf p 0)
  | .restart => .restart h
  | .postReading =>
    .postReading h
      { pressure := fieldWord p 0, temperature := fieldHalf p 4
        powers := ⟨fieldWord p 6, fieldWord p 10, fieldWord p 14, fieldWord p 18, fieldWord p 22, fieldWord p 26,
          fieldWord p 30⟩ }
  | .readAccount => .readAccount h
  | .rebase => .rebase h
  | .excursionClear => .excursionClear h (fieldByte p 0)
  | .storeService => .storeService h (fieldByte p 0) (fieldByte p 1)
  | .storeSet => .storeSet h (fieldByte p 0) (fieldWord p 1)
  | .readStore => .readStore h (fieldByte p 0)
  | .admitEntry =>
    .admitEntry h
      { kind := fieldByte p 0, first := fieldWord p 1, span := fieldByte p 5, power := fieldWord p 6
        price := fieldWord p 10, reference := fieldHalf p 14 }
  | .amend =>
    .amend h
      { id := fieldHalf p 0, fields := fieldByte p 2, power := fieldWord p 3, price := fieldWord p 7
        reference := fieldHalf p 11 }
  | .withdraw => .withdraw h (fieldHalf p 0)
  | .settle => .settle h (fieldHalf p 0)
  | .queryEntry => .queryEntry h (fieldHalf p 0)
  | .findInterval => .findInterval h (fieldWord p 0) (fieldWord p 4) (fieldWord p 8)
  | .findReference => .findReference h (fieldHalf p 0) (fieldWord p 2) (fieldWord p 6)
  | .projectionState => .projectionState h
  | .readProjection => .readProjection h (fieldByte p 0) (fieldByte p 1) (fieldByte p 2) (fieldByte p 3)
  | .readNext => .readNext h
  | .trainService => .trainService h (fieldByte p 0) (fieldByte p 1)
  | .trainReset => .trainReset h (fieldByte p 0)
  | .trainUnlock => .trainUnlock h (fieldByte p 0)
  | .trainPriority => .trainPriority h (fieldByte p 0) (p.drop 1)
  | .heaterAssign => .heaterAssign h (fieldByte p 0) (fieldByte p 1)
  | .heaterTimer => .heaterTimer h (fieldByte p 0) (fieldHalf p 1) (fieldHalf p 3)
  | .readTrain => .readTrain h (fieldByte p 0)
  | .patternWrite =>
    .patternWrite h
      { index := fieldByte p 0, enabled := fieldByte p 1, codeA := fieldByte p 2, maskA := fieldByte p 3
        codeB := fieldByte p 4, maskB := fieldByte p 5, action := fieldByte p 6, releaseMode := fieldByte p 7
        hold := fieldHalf p 8, partner := fieldByte p 10, confirm := fieldByte p 11, confirmWindow := fieldByte p 12 }
  | .patternRead => .patternRead h (fieldByte p 0)
  | .orderState => .orderState h
  | .orderRelease => .orderRelease h (fieldByte p 0)
  | .clockSet => .clockSet h (fieldWord p 0) (fieldHalf p 4) (fieldHalf p 6)
  | .clockRead => .clockRead h
  | .paramWrite => .paramWrite h (fieldByte p 0) (fieldWord p 1)
  | .paramRead => .paramRead h (fieldByte p 0)
  | .lockLimits => .lockLimits h
  | .supervisionSet =>
    .supervisionSet h
      { timeout := fieldByte p 0, window := fieldByte p 1, anyRequest := fieldByte p 2, reading := fieldByte p 3
        escalation := fieldByte p 4 }
  | .keepalive => .keepalive h
  | .forceExpiry => .forceExpiry h
  | .resume => .resume h
  | .recover => .recover h
  | .enterHold => .enterHold h
  | .enterSafe => .enterSafe h

/-- R185: the client a CLIENT byte names. -/
def clientOf (b : Byte) : Option Client :=
  if b == 1#8 then some .plant else if b == 2#8 then some .trading else none

def Client.byte : Client → Byte
  | .plant => 1
  | .trading => 2

/-- The command that an accepted frame makes: bs are the bytes of the write transaction after the command byte 0x01. The three
checks of R185 are made in order, then the CODE is looked up (R186). -/
def decodeFrame (bs : List Byte) : Instr :=
  let len := (fieldByte bs 0).toNat
  if len < 2 ∨ 66 < len ∨ bs.length ≠ len + 2 then .frameFailingChecks .length
  else if crc8 (bs.take (len + 1)) ≠ fieldByte bs (len + 1) then .frameFailingChecks .crc
  else
    match clientOf (fieldByte bs 1) with
    | none => .frameFailingChecks .client
    | some client =>
      match Request.ofCode (fieldByte bs 2) with
      | none => .unknownRequest client (fieldByte bs 2)
      | some r => commandOf r ⟨client, len - 2⟩ ((bs.drop 3).take (len - 2))

/-! ### The encoder -/

/-- The payload bytes of a request, as its layout gives (R198, R204). -/
def payloadOf : Instr → List Byte
  | .notices _ v | .noticeMaskSet _ v | .noticeMaskClear _ v | .withdraw _ v | .settle _ v | .queryEntry _ v => halfBytes v
  | .postReading _ a =>
    wordBytes a.pressure ++ halfBytes a.temperature ++ wordBytes a.powers.c0 ++ wordBytes a.powers.c1 ++
      wordBytes a.powers.c2 ++ wordBytes a.powers.c3 ++ wordBytes a.powers.e0 ++ wordBytes a.powers.e1 ++
      wordBytes a.powers.e2
  | .excursionClear _ b | .readStore _ b | .trainReset _ b | .trainUnlock _ b | .readTrain _ b | .patternRead _ b
  | .orderRelease _ b | .paramRead _ b => [b]
  | .storeService _ a b | .trainService _ a b | .heaterAssign _ a b => [a, b]
  | .storeSet _ i v | .paramWrite _ i v => i :: wordBytes v
  | .admitEntry _ a =>
    a.kind :: (wordBytes a.first ++ a.span :: (wordBytes a.power ++ wordBytes a.price ++ halfBytes a.reference))
  | .amend _ a =>
    halfBytes a.id ++ a.fields :: (wordBytes a.power ++ wordBytes a.price ++ halfBytes a.reference)
  | .findInterval _ n f q => wordBytes n ++ wordBytes f ++ wordBytes q
  | .findReference _ t f q => halfBytes t ++ wordBytes f ++ wordBytes q
  | .readProjection _ a b c d => [a, b, c, d]
  | .trainPriority _ s l => s :: l
  | .heaterTimer _ t p o => t :: (halfBytes p ++ halfBytes o)
  | .patternWrite _ a =>
    [a.index, a.enabled, a.codeA, a.maskA, a.codeB, a.maskB, a.action, a.releaseMode] ++ halfBytes a.hold ++
      [a.partner, a.confirm, a.confirmWindow]
  | .clockSet _ n d q => wordBytes n ++ halfBytes d ++ halfBytes q
  | .supervisionSet _ a => [a.timeout, a.window, a.anyRequest, a.reading, a.escalation]
  | .identify _ | .restart _ | .readAccount _ | .rebase _ | .projectionState _ | .readNext _ | .orderState _ | .clockRead _
  | .lockLimits _ | .keepalive _ | .forceExpiry _ | .resume _ | .recover _ | .enterHold _ | .enterSafe _ => []
  | .powerOnReset _ | .secondEvent _ | .readingStale | .startingExpiry _ | .readyMaxExpiry _ | .stopTimeExpiry _
  | .minDownExpiry _ | .hotWindowExpiry _ | .heaterCycleWrap _ | .confirmWindowExpiry _ | .holdExpiry _
  | .supervisionExpiry | .boundary _ | .fullWalkComplete | .trialWalkComplete | .syncPulse _ | .tripAssertion _
  | .tripRelease _ | .orderByte _ _ | .telegramGapTimeout | .frameWrittenWhileBusy | .frameFailingChecks _
  | .unknownRequest _ _ => []

/-- The bytes of the request frame of client c with CODE code and payload p (R197): LEN, CLIENT, CODE, payload, CRC. -/
def frameOf (c : Client) (code : Byte) (p : List Byte) : List Byte :=
  let body := BitVec.ofNat 8 (p.length + 2) :: c.byte :: code :: p
  body ++ [crc8 body]

/-- The frame of a command that is a request. -/
def encodeFrame (i : Instr) : Option (List Byte) :=
  i.request?.map fun (r, h) => frameOf h.client r.code (payloadOf i)

end Sys2Proof
end

