-- ==== Sys2Proof/Machine/State.lean ====
section
/-! DEFINITION. The state of the CV72 as plain data: every record its ten blocks own, the values power-on reset gives, the queue
of waiting commands, and the named whole-record updates. Fields the spec defines as a function of others (PERMIT, HEAT and ATTN
outputs, BUSY, REPLY, a store's state and capacity, a train's store and measured power, requested_kw, level notices) are computed
views in Machine/Flags.lean and Machine/Ops.lean: each fact has one home. -/

namespace Sys2Proof.Machine

/-- Reasons the machine stops. There is none: the spec gives every command of the table an effect in every state. -/
inductive Fault where
deriving DecidableEq, Repr

/-- Reasons a command has no meaning. -/
inductive Refusal where
  /-- Raised only by an arm of exec whose command has no meaning yet; no arm does so. Safe: nothing is claimed of it. -/
  | notModelled (mnemonic : String)
deriving DecidableEq, Repr

/-! ### Enumerated fields -/

/-- R2: whether mass has been set from a measured pressure. -/
inductive Basis where
  | unbased | based
deriving DecidableEq, Repr

/-- R2: the excursion state of one side. -/
inductive Excursion where
  | clear | active | held
deriving DecidableEq, Repr

/-- R28: what a store is doing. -/
inductive StoreState where
  | available | charging | discharging | isolated
deriving DecidableEq, Repr

/-- R46: the kind of an entry. -/
inductive EntryKind where
  | energyCharge | energyDischarge | reserveUp | reserveDown
deriving DecidableEq, Repr

/-- The direction of a RATE verdict (R75, R85). -/
inductive RateDir where
  | rising | falling
deriving DecidableEq, Repr

/-- R75: the verdict of a row; RATE and HEADROOM carry a direction. -/
inductive Verdict where
  | ok | capability | headroom (d : Dir) | pressureHigh | pressureLow | rate (d : RateDir) | heatFull | heatShort
deriving DecidableEq, Repr

/-- R46: the verdict and interval number of the row that caused a demotion. -/
structure Risk where
  verdict : Verdict
  interval : Nat
deriving DecidableEq, Repr

/-- R46: the status of an entry; the risk field is present exactly while the status is AT_RISK. -/
inductive EntryStatus where
  | admitted | atRisk (risk : Risk) | active | delivered | curtailed
deriving DecidableEq, Repr

/-- R76: whether the rows can be trusted. -/
inductive ProjState where
  | unavailable | stale | valid
deriving DecidableEq, Repr

/-- R99: the nine train states. -/
inductive TrainState where
  | outOfService | idle | starting | ready | running | stopping | cooldown | tripped | lockedOut
deriving DecidableEq, Repr

/-- R99: the start class. -/
inductive TrainClass where
  | hot | cold
deriving DecidableEq, Repr

/-- R99: the warm-keeping assignment. -/
inductive Heater where
  | off | on | cycleA | cycleB
deriving DecidableEq, Repr

/-- R127: what a sync pulse did. -/
inductive Capture where
  | boundary | restart | slip
deriving DecidableEq, Repr

/-- R134: the live limit that changed the target. -/
inductive LiveLimit where
  | none | pMax | pMin | taper | safe
deriving DecidableEq, Repr

/-- R151: what a match does. -/
inductive Action where
  | activateUp | activateDown | releaseUp | releaseDown | releaseAll
deriving DecidableEq, Repr

/-- R151: how an activation ends. -/
inductive ReleaseMode where
  | timed | onOther | onPattern
deriving DecidableEq, Repr

/-- R153: the state of an activation record. -/
inductive ActState where
  | idle | confirming | active
deriving DecidableEq, Repr

/-- R153: the reason of the most recent release. -/
inductive ReleaseReason where
  | none | timed | other | pattern | request | backingEnded | safe | restart | opposite
deriving DecidableEq, Repr

/-- R167: the operating mode. -/
inductive Mode where
  | commissioning | normal | hold | safe
deriving DecidableEq, Repr

/-- R171: what an excursion side does when the pressure recovers. -/
inductive ExcRecovery where
  | resume | holdOff
deriving DecidableEq, Repr

/-- R171: whether sync pulses are taken. -/
inductive SyncMode where
  | free | pulse
deriving DecidableEq, Repr

/-- R175: how far one failure moves the mode. -/
inductive Escalation where
  | first | second
deriving DecidableEq, Repr

/-- R192: what a readout page carries of each row. -/
inductive View where
  | summary | full
deriving DecidableEq, Repr

/-! ### The limits record (R171) -/

/-- The nine parameters of one train. -/
structure TrainParams where
  tpMin : Nat
  tpMax : Nat
  ramp : Nat
  startHot : Nat
  startCold : Nat
  stopTime : Nat
  minRun : Nat
  minDown : Nat
  readyMax : Nat
deriving DecidableEq, Repr

/-- The 112 parameters of the limits record, by name. -/
structure Limits where
  vCav : Nat
  zPm : Nat
  pMin : Nat
  pMax : Nat
  dpMax : Nat
  pTripLo : Nat
  pTripHi : Nat
  pHyst : Nat
  excRecovery : ExcRecovery
  rebaseTol : Nat
  readStale : Nat
  bandEdge : Vector Nat 7
  wC : Vector Nat 8
  wE : Vector Nat 8
  hC : Nat
  hE : Nat
  loss : Nat
  capHs : PerStore Nat
  lowMark : Nat
  train : PerTrain TrainParams
  hotWindow : Nat
  startsMax : Nat
  tripsLock : Nat
  lInt : Nat
  gateLead : Nat
  curtailTol : Nat
  tFa : Nat
  syncMode : SyncMode
deriving DecidableEq, Repr

def TrainParams.compressorDefault : TrainParams :=
  { tpMin := 20000, tpMax := 60000, ramp := 400, startHot := 600, startCold := 1800, stopTime := 300, minRun := 1800,
    minDown := 900, readyMax := 900 }

def TrainParams.expanderDefault : TrainParams :=
  { tpMin := 30000, tpMax := 110000, ramp := 1000, startHot := 480, startCold := 2400, stopTime := 360, minRun := 1800,
    minDown := 1200, readyMax := 900 }

/-- The defaults of R171. -/
def Limits.default : Limits :=
  { vCav := 400000, zPm := 1010, pMin := 4300, pMax := 7200, dpMax := 180, pTripLo := 4000, pTripHi := 7400, pHyst := 100,
    excRecovery := .holdOff, rebaseTol := 50, readStale := 10,
    bandEdge := #v[4500, 5000, 5500, 6000, 6500, 7000, 7500],
    wC := #v[400, 410, 420, 430, 440, 450, 460, 470],
    wE := #v[330, 335, 340, 345, 350, 355, 360, 365],
    hC := 650, hE := 720, loss := 20, capHs := ⟨1800000, 1800000, 1800000⟩, lowMark := 90000,
    train := PerTrain.ofFn fun t =>
      match t.side with
      | .charge => TrainParams.compressorDefault
      | .discharge => TrainParams.expanderDefault,
    hotWindow := 28800, startsMax := 6, tripsLock := 3, lInt := 900, gateLead := 2, curtailTol := 20, tFa := 300,
    syncMode := .free }

/-! ### The cavern account (R2) -/

/-- R2: the charged and discharged mass and the rebase mark of the most recent close. -/
structure LastClose where
  charged : Nat
  discharged : Nat
  rebased : Bool
deriving DecidableEq, Repr

/-- R2: the account record; units and ranges are those of its table. -/
structure Account where
  basis : Basis
  mass : Nat
  pCalc : Nat
  pMeas : Nat
  tMeas : Nat
  power : PerTrain Nat
  readingAge : Nat
  stale : Bool
  clamped : Bool
  readingSeen : Bool
  eC : Nat
  eE : Nat
  excHi : Excursion
  excLo : Excursion
  lastClose : LastClose
deriving DecidableEq, Repr

/-! ### The heat stores (R28) -/

/-- One store: whether it is ISOLATED, its content in kJ (MJ × 1,000 + remainder), and the trains on it in assignment order.
The other three states follow from the list (R30). -/
structure Store where
  isolated : Bool
  contentKj : Nat
  trains : List TrainIx
deriving DecidableEq, Repr

/-- R28: the heat summary. -/
structure HeatSummary where
  pooledContent : Nat
  pooledCapacity : Nat
  reject : Bool
  taper : Bool
  taperCap : Nat
deriving DecidableEq, Repr

/-- The heat-store block. -/
structure Heat where
  store : PerStore Store
  summary : HeatSummary
deriving DecidableEq, Repr

/-! ### The commitment table (R46, R47, R48) -/

/-- R46: one entry record. -/
structure Entry where
  id : Nat
  kind : EntryKind
  first : Nat
  span : Nat
  power : Nat
  price : Int
  reference : Nat
  seq : Nat
  status : EntryStatus
  delivered : Nat
  shortCount : Nat
deriving DecidableEq, Repr

/-- R47, R48: the records in the order of the index (ascending (first, seq)), and the two counters. -/
structure Table where
  entries : List Entry
  nextId : Nat
  lastSeq : Nat
deriving DecidableEq, Repr

/-! ### The projection engine (R75, R76, R79) -/

/-- What a walk takes of one train (R79). -/
structure WalkTrain where
  state : TrainState
  startClass : TrainClass
  rank : Nat
deriving DecidableEq, Repr

/-- The inputs of a walk (R79). The limits record is taken whole; a walk reads only the parameters R79 lists. -/
structure WalkInputs where
  mass : Nat
  tdk : Nat
  heat : Nat
  poolCapacity : Nat
  entries : List Entry
  trains : PerTrain WalkTrain
  limits : Limits
  base : Nat
deriving DecidableEq, Repr

/-- R75: one row of the projection table. -/
structure Row where
  interval : Nat
  chargeKw : Nat
  dischargeKw : Nat
  netKw : Int
  resUpKw : Nat
  resDnKw : Nat
  massStart : Nat
  massEnd : Nat
  pStart : Nat
  pEnd : Nat
  heatEnd : Int
  capC : Nat
  capE : Nat
  quickC : Nat
  quickE : Nat
  verdict : Verdict
  unresolved : Bool
deriving DecidableEq, Repr

/-- R76: every row after power-on reset. -/
def Row.blank : Row :=
  { interval := 0, chargeKw := 0, dischargeKw := 0, netKw := 0, resUpKw := 0, resDnKw := 0, massStart := 0, massEnd := 0,
    pStart := 0, pEnd := 0, heatEnd := 0, capC := 0, capE := 0, quickC := 0, quickE := 0, verdict := .ok,
    unresolved := false }

/-- R91: the candidate of a trial, as an entry record: a new one for ADMIT, the amended one at its new power for AMEND. -/
structure Candidate where
  entry : Entry
  amends : Bool
deriving DecidableEq, Repr

/-- R76, R91: whether a trial is in hand; a RUNNING trial holds the included set it started with. -/
inductive Trial where
  | none
  | waiting (c : Candidate)
  | running (c : Candidate) (included : List Entry)
deriving DecidableEq, Repr

/-- R75, R76: the projection table, the state record, the running walk's inputs and the walk basis. -/
structure Projection where
  state : ProjState
  baseInterval : Nat
  walk : Option WalkInputs
  trial : Trial
  restarts : Nat
  completed : Nat
  passes : Nat
  demoted : Nat
  recovered : Nat
  unresolvedCount : Nat
  firstUnresolved : Option Nat
  rows : List Row
  walkBasis : Option WalkInputs
deriving DecidableEq, Repr

/-! ### The trains (R99) -/

/-- R99: one train record, without the fields that mirror another block's (measured, store) or the index (index, kind). -/
structure Train where
  state : TrainState
  setpoint : Nat
  startClass : TrainClass
  stateTimer : Nat
  runTime : Nat
  downSince : Nat
  startsToday : Nat
  tripsToday : Nat
  rank : Nat
  heater : Heater
  warm : Bool
  tripLine : Bool
  startLimited : Bool
  excursionStopped : Bool
deriving DecidableEq, Repr

/-- R99: a heater cycle timer. -/
structure Cycle where
  period : Nat
  onTime : Nat
  phase : Nat
deriving DecidableEq, Repr

/-- The train sequencer. -/
structure Trains where
  train : PerTrain Train
  timerA : Cycle
  timerB : Cycle
deriving DecidableEq, Repr

/-! ### The clock and the dispatcher (R127, R134) -/

/-- R127: the clock record. -/
structure Clock where
  running : Bool
  n : Nat
  s : Nat
  dayPos : Nat
  lastCapture : Option (Nat × Capture)
deriving DecidableEq, Repr

/-- R146: the closing figures of the dispatcher. -/
structure DispatchClosing where
  interval : Nat
  direction : Option Side
  scheduled : Nat
  deliveredKj : Nat
  fraction : Nat
deriving DecidableEq, Repr

/-- R134: the dispatch record. -/
structure Dispatch where
  tSched : Int
  actDir : Option Dir
  actKw : Nat
  target : Int
  limit : LiveLimit
  dir : Option Side
  commit : List TrainIx
  need : List TrainIx
  share : PerTrain Nat
  hold : PerTrain Bool
  schedKj : Int
  delKj : Int
  closing : DispatchClosing
deriving DecidableEq, Repr

/-! ### The order receiver (R149 to R153) -/

/-- R149: the telegram assembler; COLLECTING holds the bytes taken so far, SYNC first. -/
inductive Assembler where
  | hunting
  | collecting (held : List Byte)
deriving DecidableEq, Repr

/-- R151: one pattern. -/
structure Pattern where
  enabled : Bool
  codeA : Byte
  maskA : Byte
  codeB : Byte
  maskB : Byte
  action : Action
  releaseMode : ReleaseMode
  hold : Nat
  partner : Fin 8
  confirm : Bool
  confirmWindow : Nat
deriving DecidableEq, Repr

/-- R151: a pattern after power-on reset. -/
def Pattern.blank : Pattern :=
  { enabled := false, codeA := 0, maskA := 0, codeB := 0, maskB := 0, action := .activateUp, releaseMode := .timed,
    hold := 900, partner := 0, confirm := false, confirmWindow := 10 }

/-- R162: the closing figures of an activation record. -/
structure ActClosing where
  interval : Nat
  servedKj : Nat
  requestedKj : Nat
deriving DecidableEq, Repr

/-- R153: one activation record (requested_kw is formed wherever it is read, R157). -/
structure Activation where
  state : ActState
  pattern : Fin 8
  level : Nat
  holdLeft : Nat
  confirmLeft : Nat
  lastRelease : ReleaseReason
  servedKj : Nat
  requestedKj : Nat
  closing : ActClosing
deriving DecidableEq, Repr

/-- R153: an activation record after power-on reset. -/
def Activation.blank : Activation :=
  { state := .idle, pattern := 0, level := 0, holdLeft := 0, confirmLeft := 0, lastRelease := .none, servedKj := 0,
    requestedKj := 0, closing := ⟨0, 0, 0⟩ }

/-- The order receiver: assembler, counters (R150), patterns and the two activation records. -/
structure Orders where
  assembler : Assembler
  received : Nat
  unmatched : Nat
  discarded : Nat
  patterns : Vector Pattern 8
  up : Activation
  down : Activation
deriving DecidableEq, Repr

/-! ### Modes and supervision (R167, R171, R175) -/

/-- R175: the supervision record. -/
structure Supervision where
  timeout : Nat
  window : Bool
  anyRequest : Bool
  reading : Bool
  escalation : Escalation
  failures : Nat
  remaining : Nat
deriving DecidableEq, Repr

/-! ### The request port (R182 to R193) -/

/-- R192: the readout cursor. -/
structure Cursor where
  baseRow : Nat
  currentRow : Nat
  countBase : Nat
  countLeft : Nat
  reload : Bool
  view : View
deriving DecidableEq, Repr

/-- R192: the cleared cursor. -/
def Cursor.cleared : Cursor :=
  { baseRow := 0, currentRow := 0, countBase := 0, countLeft := 0, reload := false, view := .summary }

/-- R184, R186: the request in flight. Only an ADMIT or an AMEND that reached its trial is held across commands; the candidate
stands in the projection's trial, and an AMEND's client and named fields stand here for its completion (R55). -/
inductive InFlight where
  | admitEntry
  | amend (client : Client) (id power : Nat) (price : Option Int) (reference : Option Nat)
deriving DecidableEq, Repr

/-- The request port: the reply buffer (empty, or the bytes of one reply frame), the request in flight, OVERRUN, the latched
notices of the pending set and the mask (u16 sets of R197), and the cursor. -/
structure Port where
  reply : List Byte
  inFlight : Option InFlight
  overrun : Bool
  latched : Half
  mask : Half
  cursor : Cursor
deriving DecidableEq, Repr

/-! ### Responses put off (R69, R90) -/

/-- R129: a boundary event as the blocks see it: the interval it ends, the one it begins, and the day-boundary mark. -/
structure Turn where
  ended : Nat
  begun : Nat
  newDay : Bool
deriving DecidableEq, Repr

/-- A block's response that is due and not yet made: to a second, or to a boundary. -/
inductive Due where
  | second (p : Part)
  | boundary (b : Turn) (p : Part)
deriving DecidableEq, Repr

/-! ### The whole state -/

/-- The state of the part: one field for each block of spec 00's block overview; the causes that hold it in power-on reset (R1);
the responses that blocks owe to a second or a boundary already raised, oldest first (R69, R90, log 24); the model's own counter of
free values used (log 1); and the commands that wait, first in, first out. -/
structure State where
  account : Account
  heat : Heat
  table : Table
  proj : Projection
  trains : Trains
  clock : Clock
  dispatch : Dispatch
  orders : Orders
  mode : Mode
  limits : Limits
  locked : Bool
  supervision : Supervision
  port : Port
  por : ResetPins
  due : List Due
  freeCount : Nat
  pending : List Instr
deriving DecidableEq, Repr

/-! ### Whole-record updates -/

def State.withAccount (s : State) (v : Account) : State := { s with account := v }
def State.withHeat (s : State) (v : Heat) : State := { s with heat := v }
def State.withTable (s : State) (v : Table) : State := { s with table := v }
def State.withProj (s : State) (v : Projection) : State := { s with proj := v }
def State.withTrains (s : State) (v : Trains) : State := { s with trains := v }
def State.withClock (s : State) (v : Clock) : State := { s with clock := v }
def State.withDispatch (s : State) (v : Dispatch) : State := { s with dispatch := v }
def State.withOrders (s : State) (v : Orders) : State := { s with orders := v }
def State.withMode (s : State) (v : Mode) : State := { s with mode := v }
def State.withLimits (s : State) (v : Limits) : State := { s with limits := v }
def State.withLocked (s : State) (v : Bool) : State := { s with locked := v }
def State.withSupervision (s : State) (v : Supervision) : State := { s with supervision := v }
def State.withPort (s : State) (v : Port) : State := { s with port := v }
def State.withPor (s : State) (v : ResetPins) : State := { s with por := v }
def State.withDue (s : State) (v : List Due) : State := { s with due := v }
def State.withFreeCount (s : State) (v : Nat) : State := { s with freeCount := v }
def State.withPending (s : State) (v : List Instr) : State := { s with pending := v }

/-! ### Power-on reset -/

/-- R100: a train record after power-on reset, for the level of its TRIP input when the reset ends. -/
def Train.afterReset (t : TrainIx) (line : Bool) : Train :=
  { state := if line then .tripped else .cooldown
    setpoint := 0
    startClass := .cold
    stateTimer := if line then 0 else (Limits.default.train.get t).minDown
    runTime := 0
    downSince := 86401
    startsToday := 0
    tripsToday := 0
    rank := match t with
      | .c0 | .e0 => 1
      | .c1 | .e1 => 2
      | .c2 | .e2 => 3
      | .c3 => 4
    heater := .off
    warm := false
    tripLine := line
    startLimited := false
    excursionStopped := false }

/-- R1: every piece of state as power-on reset leaves it (R3, R29, R48, R76, R100, R127, R134, R149 to R153, R167, R171, R175,
R183, R189, R192), for the levels the seven TRIP inputs have when it ends. -/
def State.afterReset (lines : PerTrain Bool) : State :=
  { account :=
      { basis := .unbased, mass := 0, pCalc := 0, pMeas := 0, tMeas := 2880, power := PerTrain.ofFn fun _ => 0,
        readingAge := 0, stale := true, clamped := false, readingSeen := false, eC := 0, eE := 0, excHi := .clear,
        excLo := .clear, lastClose := ⟨0, 0, false⟩ }
    heat :=
      { store := PerStore.ofFn fun _ => ⟨false, 0, []⟩
        summary :=
          { pooledContent := 0
            pooledCapacity := Limits.default.capHs.hs0 + Limits.default.capHs.hs1 + Limits.default.capHs.hs2
            reject := false, taper := false, taperCap := 0 } }
    table := { entries := [], nextId := 1, lastSeq := 0 }
    proj :=
      { state := .unavailable, baseInterval := 0, walk := none, trial := .none, restarts := 0, completed := 0, passes := 0,
        demoted := 0, recovered := 0, unresolvedCount := 0, firstUnresolved := none, rows := List.replicate 192 Row.blank,
        walkBasis := none }
    trains :=
      { train := PerTrain.ofFn fun t => Train.afterReset t (lines.get t)
        timerA := ⟨600, 60, 0⟩, timerB := ⟨600, 60, 0⟩ }
    clock := { running := false, n := 0, s := 0, dayPos := 0, lastCapture := none }
    dispatch :=
      { tSched := 0, actDir := none, actKw := 0, target := 0, limit := .none, dir := none, commit := [], need := [],
        share := PerTrain.ofFn fun _ => 0, hold := PerTrain.ofFn fun _ => false, schedKj := 0, delKj := 0,
        closing := ⟨0, none, 0, 0, 1000⟩ }
    orders :=
      { assembler := .hunting, received := 0, unmatched := 0, discarded := 0
        patterns := Vector.replicate 8 Pattern.blank
        up := Activation.blank, down := Activation.blank }
    mode := .commissioning
    limits := Limits.default
    locked := false
    supervision :=
      { timeout := 0, window := false, anyRequest := false, reading := false, escalation := .second, failures := 0,
        remaining := 0 }
    port :=
      { reply := [], inFlight := none, overrun := false, latched := 0, mask := 0x2815#16, cursor := Cursor.cleared }
    por := ⟨false, false⟩
    due := []
    freeCount := 0
    pending := [] }

/-- The part right after power-on reset with every TRIP line released (log 3), and no command waiting. -/
def State.reset : State := State.afterReset (PerTrain.ofFn fun _ => false)

end Sys2Proof.Machine
end

