-- ==== Sys2Proof/Machine/Arith.lean ====
section
/-! DEFINITION. The integer arithmetic the chapters share: rounding, clamping, pressure and mass (R13, R14), the work bands
(R15), and the shortest sufficient run of trains (R82, R138, R141). -/

namespace Sys2Proof.Machine

/-- ceil(a ÷ b) (spec 00, Arithmetic). -/
def ceilDiv (a b : Nat) : Nat := (a + b - 1) / b

/-- Saturate a signed figure to lo..hi (spec 00, Arithmetic). -/
def clampInt (lo hi : Nat) (z : Int) : Nat := if z < lo then lo else if (hi : Int) < z then hi else z.toNat

/-- Saturate a figure to lo..hi. -/
def clampNat (lo hi n : Nat) : Nat := max lo (min hi n)

/-- R13: the pressure in kPa of a mass in kg at a temperature in dK. -/
def pressureFromMass (l : Limits) (mass tdk : Nat) : Nat :=
  min 20000 (mass * 287 * tdk * l.zPm / (l.vCav * 10000000))

/-- R14: the mass in kg of a pressure in kPa at a temperature in dK. -/
def massFromPressure (l : Limits) (p tdk : Nat) : Nat :=
  min 100000000 (p * l.vCav * 10000000 / (287 * tdk * l.zPm))

/-- R15: the band of a pressure: the first edge above it gives the band, and a pressure at or above every edge is in band 7.
With edges out of order this is still the first case of R15 whose condition holds. -/
def bandOf (l : Limits) (p : Nat) : Fin 8 :=
  if p < l.bandEdge[0] then 0 else if p < l.bandEdge[1] then 1 else if p < l.bandEdge[2] then 2
  else if p < l.bandEdge[3] then 3 else if p < l.bandEdge[4] then 4 else if p < l.bandEdge[5] then 5
  else if p < l.bandEdge[6] then 6 else 7

/-- The compression work of the band of a pressure (R15). -/
def workC (l : Limits) (p : Nat) : Nat := l.wC.get (bandOf l p)

/-- The expansion yield of the band of a pressure (R15). -/
def workE (l : Limits) (p : Nat) : Nat := l.wE.get (bandOf l p)

/-- The next interval number: N rises by 1, wrapping from 4,294,967,295 to 0 (R129). -/
def nextInterval (n : Nat) : Nat := (n + 1) % 4294967296

/-- D, the intervals in a day (R127). -/
def intervalsPerDay (l : Limits) : Nat := 86400 / l.lInt

/-- The trains of a list in rank order, rank 1 first (R82, R138). -/
def byRank (rank : TrainIx → Nat) (ts : List TrainIx) : List TrainIx :=
  ts.insertionSort fun a b => rank a ≤ rank b

/-- The shortest leading run of ts whose sum of capacity is at least need, or all of ts if none is (R82, R138, R141). -/
def shortestRun (cap : TrainIx → Nat) : Nat → List TrainIx → List TrainIx
  | _, [] => []
  | need, t :: ts => if need = 0 then [] else t :: shortestRun cap (need - cap t) ts

/-- The sum of a figure over some trains. -/
def sumOver (f : TrainIx → Nat) (ts : List TrainIx) : Nat := (ts.map f).sum

/-- The side of a signed net power: positive is discharge (spec 00, Units and signs). -/
def sideOf (net : Int) : Option Side :=
  if 0 < net then some .discharge else if net < 0 then some .charge else none

end Sys2Proof.Machine
end

