-- ==== Sys2Proof/Machine/Limits.lean ====
section
/-! DEFINITION. The limits record by index: the 112 parameters, their places (R198), ranges and defaults (R171), and the
cross-checks of LOCK_LIMITS (R174). -/

namespace Sys2Proof.Machine

/-- The nine parameters of a train, in index order (R198). -/
inductive TrainParam where
  | tpMin | tpMax | ramp | startHot | startCold | stopTime | minRun | minDown | readyMax
deriving DecidableEq, Repr

/-- A parameter of the limits record (R171). -/
inductive Param where
  | vCav | zPm | pMin | pMax | dpMax | pTripLo | pTripHi | pHyst | excRecovery | rebaseTol | readStale
  | bandEdge (i : Fin 7) | wC (i : Fin 8) | wE (i : Fin 8)
  | hC | hE | loss | capHs (i : StoreIx) | lowMark
  | train (t : TrainIx) (p : TrainParam)
  | hotWindow | startsMax | tripsLock | lInt | gateLead | curtailTol | tFa | syncMode
deriving DecidableEq, Repr

def TrainParam.all : List TrainParam :=
  [.tpMin, .tpMax, .ramp, .startHot, .startCold, .stopTime, .minRun, .minDown, .readyMax]

/-- Every parameter, at its index (R198). -/
def Param.all : List Param :=
  [.vCav, .zPm, .pMin, .pMax, .dpMax, .pTripLo, .pTripHi, .pHyst, .excRecovery, .rebaseTol, .readStale]
    ++ [0, 1, 2, 3, 4, 5, 6].map Param.bandEdge
    ++ [0, 1, 2, 3, 4, 5, 6, 7].map Param.wC
    ++ [0, 1, 2, 3, 4, 5, 6, 7].map Param.wE
    ++ [.hC, .hE, .loss, .capHs .hs0, .capHs .hs1, .capHs .hs2, .lowMark]
    ++ TrainIx.all.flatMap (fun t => TrainParam.all.map (Param.train t))
    ++ [.hotWindow, .startsMax, .tripsLock, .lInt, .gateLead, .curtailTol, .tFa, .syncMode]

/-- The parameter an index names; an index of 112 or above names none. -/
def Param.ofIndex (i : Nat) : Option Param := Param.all[i]?

/-- The index of a train, 0 to 6 (R99). -/
def trainIndex (t : TrainIx) : Nat := TrainIx.all.idxOf t

/-- The index of a parameter (R198). -/
def Param.index (p : Param) : Nat := Param.all.idxOf p

def TrainParams.get (v : TrainParams) : TrainParam → Nat
  | .tpMin => v.tpMin | .tpMax => v.tpMax | .ramp => v.ramp | .startHot => v.startHot | .startCold => v.startCold
  | .stopTime => v.stopTime | .minRun => v.minRun | .minDown => v.minDown | .readyMax => v.readyMax

def TrainParams.set (v : TrainParams) (p : TrainParam) (n : Nat) : TrainParams :=
  match p with
  | .tpMin => { v with tpMin := n }
  | .tpMax => { v with tpMax := n }
  | .ramp => { v with ramp := n }
  | .startHot => { v with startHot := n }
  | .startCold => { v with startCold := n }
  | .stopTime => { v with stopTime := n }
  | .minRun => { v with minRun := n }
  | .minDown => { v with minDown := n }
  | .readyMax => { v with readyMax := n }

/-- The value of a parameter as PARAM_READ carries it; the two enumerated ones by their codes (R196, R198). -/
def Limits.get (l : Limits) : Param → Nat
  | .vCav => l.vCav | .zPm => l.zPm | .pMin => l.pMin | .pMax => l.pMax | .dpMax => l.dpMax
  | .pTripLo => l.pTripLo | .pTripHi => l.pTripHi | .pHyst => l.pHyst
  | .excRecovery => match l.excRecovery with
    | .resume => 0
    | .holdOff => 1
  | .rebaseTol => l.rebaseTol | .readStale => l.readStale
  | .bandEdge i => l.bandEdge.get i | .wC i => l.wC.get i | .wE i => l.wE.get i
  | .hC => l.hC | .hE => l.hE | .loss => l.loss | .capHs i => l.capHs.get i | .lowMark => l.lowMark
  | .train t p => (l.train.get t).get p
  | .hotWindow => l.hotWindow | .startsMax => l.startsMax | .tripsLock => l.tripsLock | .lInt => l.lInt
  | .gateLead => l.gateLead | .curtailTol => l.curtailTol | .tFa => l.tFa
  | .syncMode => match l.syncMode with
    | .free => 0
    | .pulse => 1

/-- The limits record with one parameter written. -/
def Limits.set (l : Limits) (p : Param) (v : Nat) : Limits :=
  match p with
  | .vCav => { l with vCav := v }
  | .zPm => { l with zPm := v }
  | .pMin => { l with pMin := v }
  | .pMax => { l with pMax := v }
  | .dpMax => { l with dpMax := v }
  | .pTripLo => { l with pTripLo := v }
  | .pTripHi => { l with pTripHi := v }
  | .pHyst => { l with pHyst := v }
  | .excRecovery => { l with excRecovery := if v = 0 then .resume else .holdOff }
  | .rebaseTol => { l with rebaseTol := v }
  | .readStale => { l with readStale := v }
  | .bandEdge i => { l with bandEdge := l.bandEdge.set i v }
  | .wC i => { l with wC := l.wC.set i v }
  | .wE i => { l with wE := l.wE.set i v }
  | .hC => { l with hC := v }
  | .hE => { l with hE := v }
  | .loss => { l with loss := v }
  | .capHs i => { l with capHs := l.capHs.set i v }
  | .lowMark => { l with lowMark := v }
  | .train t q => { l with train := l.train.set t ((l.train.get t).set q v) }
  | .hotWindow => { l with hotWindow := v }
  | .startsMax => { l with startsMax := v }
  | .tripsLock => { l with tripsLock := v }
  | .lInt => { l with lInt := v }
  | .gateLead => { l with gateLead := v }
  | .curtailTol => { l with curtailTol := v }
  | .tFa => { l with tFa := v }
  | .syncMode => { l with syncMode := if v = 0 then .free else .pulse }

def TrainParam.range : TrainParam → Nat × Nat
  | .tpMin | .tpMax => (0, 200000)
  | .ramp => (1, 200000)
  | .startHot | .startCold | .stopTime | .minRun | .minDown | .readyMax => (1, 7200)

/-- The lowest and highest value of a parameter (R171); L_INT's five values are picked out by Param.inRange. -/
def Param.range : Param → Nat × Nat
  | .vCav => (50000, 2000000)
  | .zPm => (900, 1100)
  | .pMin | .pMax => (1000, 15000)
  | .dpMax => (10, 2000)
  | .pTripLo | .pTripHi => (0, 20000)
  | .pHyst => (10, 500)
  | .excRecovery => (0, 1)
  | .rebaseTol => (5, 500)
  | .readStale => (2, 60)
  | .bandEdge _ => (0, 20000)
  | .wC _ | .wE _ => (100, 2000)
  | .hC => (0, 1000)
  | .hE => (0, 2000)
  | .loss => (0, 1000)
  | .capHs _ => (10000, 10000000)
  | .lowMark => (0, 1000000)
  | .train _ q => q.range
  | .hotWindow => (600, 86400)
  | .startsMax => (1, 24)
  | .tripsLock => (1, 10)
  | .lInt => (300, 3600)
  | .gateLead => (1, 8)
  | .curtailTol => (0, 200)
  | .tFa => (30, 1800)
  | .syncMode => (0, 1)

/-- R171, R172: whether a value is one the parameter may take. -/
def Param.inRange (p : Param) (v : Nat) : Bool :=
  decide (p.range.1 ≤ v) && decide (v ≤ p.range.2) && (p != .lInt || decide (v ∈ [300, 600, 900, 1800, 3600]))

/-- The pairs (lower, higher) that LOCK_LIMITS compares, in its order (R174). -/
def crossChecks : List (Param × Param) :=
  [(.pTripLo, .pMin), (.pMin, .pMax), (.pMax, .pTripHi),
   (.bandEdge 0, .bandEdge 1), (.bandEdge 1, .bandEdge 2), (.bandEdge 2, .bandEdge 3), (.bandEdge 3, .bandEdge 4),
   (.bandEdge 4, .bandEdge 5), (.bandEdge 5, .bandEdge 6)]
    ++ TrainIx.all.map fun t => (.train t .tpMin, .train t .tpMax)

/-- R174: the parameter named by the first cross-check that fails: the higher one of the failing pair. -/
def failedCheck (l : Limits) : Option Param :=
  (crossChecks.find? fun c => !decide (l.get c.1 < l.get c.2)).map fun c => c.2

end Sys2Proof.Machine
end

