-- ==== Sys2Proof/Machine/Operands.lean ====
section
/-! DEFINITION. The operands of requests: indices, enumerated codes and flags as R196 counts them, from the raw fields of a
command; a value outside its range is none, and the owner answers BAD_ARGUMENT. -/

namespace Sys2Proof.Machine

/-- A train index 0..6. -/
def trainOf (b : Byte) : Option TrainIx := TrainIx.all[b.toNat]?

/-- A store index 0..2. -/
def storeOf (b : Byte) : Option StoreIx := StoreIx.all[b.toNat]?

/-- A flag (R196). -/
def flagOf (b : Byte) : Option Bool := [false, true][b.toNat]?

/-- The directions of STORE_SERVICE and TRAIN_SERVICE: OUT is false, RETURN is true. -/
def returnOf (b : Byte) : Option Bool := [false, true][b.toNat]?

/-- The sides of EXCURSION_CLEAR, as (HI named, LO named): HI, LO, BOTH. -/
def excursionSidesOf (b : Byte) : Option (Bool × Bool) := [(true, false), (false, true), (true, true)][b.toNat]?

/-- The directions of ORDER_RELEASE: UP, DOWN, BOTH. -/
def orderDirsOf (b : Byte) : Option (List Dir) := [[Dir.up], [Dir.down], [Dir.up, Dir.down]][b.toNat]?

def entryKindOf (b : Byte) : Option EntryKind :=
  [EntryKind.energyCharge, .energyDischarge, .reserveUp, .reserveDown][b.toNat]?

def heaterOf (b : Byte) : Option Heater := [Heater.off, .on, .cycleA, .cycleB][b.toNat]?

def cycleTimerOf (b : Byte) : Option CycleTimer := [CycleTimer.a, .b][b.toNat]?

def actionOf (b : Byte) : Option Action :=
  [Action.activateUp, .activateDown, .releaseUp, .releaseDown, .releaseAll][b.toNat]?

def releaseModeOf (b : Byte) : Option ReleaseMode := [ReleaseMode.timed, .onOther, .onPattern][b.toNat]?

def escalationOf (b : Byte) : Option Escalation := [Escalation.first, .second][b.toNat]?

def viewOf (b : Byte) : Option View := [View.summary, .full][b.toNat]?

/-- TRAIN_PRIORITY's side: 0 CHARGE, 1 DISCHARGE (R200). -/
def sideOfByte (b : Byte) : Option Side := [Side.charge, .discharge][b.toNat]?

/-- A pattern index 0..7. -/
def patternOf (b : Byte) : Option (Fin 8) := if h : b.toNat < 8 then some ⟨b.toNat, h⟩ else none

/-- R152: the pattern a PATTERN_WRITE carries with its index, if every argument is in its range and an ON_PATTERN pattern is not
its own partner. -/
def patternArgsOf (a : PatternArgs) : Option (Fin 8 × Pattern) := do
  let i ← patternOf a.index
  let enabled ← flagOf a.enabled
  let action ← actionOf a.action
  let mode ← releaseModeOf a.releaseMode
  let partner ← patternOf a.partner
  let confirm ← flagOf a.confirm
  if 1 ≤ a.hold.toNat ∧ a.hold.toNat ≤ 3600 ∧ 1 ≤ a.confirmWindow.toNat ∧ a.confirmWindow.toNat ≤ 30
      ∧ ¬ (mode = .onPattern ∧ partner = i) then
    some (i, { enabled, codeA := a.codeA, maskA := a.maskA, codeB := a.codeB, maskB := a.maskB, action,
               releaseMode := mode, hold := a.hold.toNat, partner, confirm, confirmWindow := a.confirmWindow.toNat })
  else none

/-- R123: the trains a TRAIN_PRIORITY lists, if the list is each of the side's trains exactly once. -/
def priorityOf (side : Side) (l : List Byte) : Option (List TrainIx) := do
  let ts ← l.mapM trainOf
  if ts.length = side.trains.length ∧ side.trains.all (fun t => ts.contains t) then some ts else none

end Sys2Proof.Machine
end

