-- ==== Sys2Proof/Machine/Flags.lean ====
section
/-! DEFINITION. The computed views of the state: output pins (PERMIT, HEAT, ATTN), level notices and the pending set, the status
byte, a store's state and capacity, a train's store, measured and metered power, the sums over ACTIVE entries, and requested_kw. -/

namespace Sys2Proof.Machine

/-! ### Power-on reset (R1) -/

/-- R1: power-on reset is held while the supply is below its working level or nRST is asserted. -/
def inReset (s : State) : Bool := s.por.supplyLow || s.por.nrst

/-! ### Notices (R189, R197) -/

/-- The sixteen notices, in the bit order of R197; the last four are level notices, the others latched (R189). -/
inductive Notice where
  | atRisk | recovered | entryClosed | trainEvent | trip | rebased | projectionDone | order | orderUnbacked | orderShort
  | clockSlip | mode | readingStale | excursion | heatReject | heatTaper
deriving DecidableEq, Repr

/-- The set holding one notice (R197). -/
def Notice.bit : Notice → Half
  | .atRisk => 0x0001 | .recovered => 0x0002 | .entryClosed => 0x0004 | .trainEvent => 0x0008
  | .trip => 0x0010 | .rebased => 0x0020 | .projectionDone => 0x0040 | .order => 0x0080
  | .orderUnbacked => 0x0100 | .orderShort => 0x0200 | .clockSlip => 0x0400 | .mode => 0x0800
  | .readingStale => 0x1000 | .excursion => 0x2000 | .heatReject => 0x4000 | .heatTaper => 0x8000

/-- The default mask (R189): MODE, TRIP, AT_RISK, EXCURSION and ENTRY_CLOSED. -/
def defaultMask : Half := 0x2815

/-- The mask forced on entry into SAFE (R191): MODE, TRIP, EXCURSION and READING_STALE. -/
def safeMask : Half := 0x3810

/-- The level notices whose conditions hold (R26, R45). -/
def levelNotices (s : State) : Half :=
  (if s.account.stale then Notice.readingStale.bit else 0)
    ||| (if s.account.excHi ≠ .clear ∨ s.account.excLo ≠ .clear then Notice.excursion.bit else 0)
    ||| (if s.heat.summary.reject then Notice.heatReject.bit else 0)
    ||| (if s.heat.summary.taper then Notice.heatTaper.bit else 0)

/-- The pending set (R189). -/
def pendingNotices (s : State) : Half := s.port.latched ||| levelNotices s

/-- The ATTN pin (R189): some notice is both pending and in the mask. It is released while power-on reset is held (R1). -/
def attn (s : State) : Bool := !inReset s && pendingNotices s &&& s.port.mask != 0

/-! ### The port's flags (R183) -/

/-- BUSY: a request is in flight. -/
def busy (s : State) : Bool := s.port.inFlight.isSome

/-- REPLY: a reply is waiting to be read. -/
def replyWaiting (s : State) : Bool := !s.port.reply.isEmpty

def modeCode : Mode → Nat
  | .commissioning => 0 | .normal => 1 | .hold => 2 | .safe => 3

def bit (b : Bool) (k : Nat) : Byte := if b then 1#8 <<< k else 0

/-- The status byte (R183, R197). -/
def statusByte (s : State) : Byte :=
  bit (busy s) 7 ||| bit (replyWaiting s) 6 ||| bit (attn s) 5 ||| bit s.port.overrun 4
    ||| BitVec.ofNat 8 (modeCode s.mode * 4) ||| bit s.locked 1 ||| bit (decide (s.proj.state = .valid)) 0

/-- The bytes the port shifts out on MISO in one transaction in which the master shifts in mosi (R182, R187): the status byte
first; after it the reply buffer for a read (command 0x02), padded with 0x00, and 0x00 otherwise. After the status byte of a write
(0x01) the spec states no value; 0x00 there is the model's choice (log 23). So is it that the whole transaction reads the status byte
and the reply buffer of one state: of a reply placed while a read is in progress the spec does not say which bytes the rest shifts out
(log 23). While power-on reset is held no transaction is taken (R1; of one in progress when a reset begins or ends, log 26). -/
def transactionOut (s : State) (mosi : List Byte) : List Byte :=
  if inReset s then []
  else
    match mosi with
    | [] => [statusByte s]
    | command :: rest =>
      statusByte s :: (if command = 0x02#8 then (s.port.reply ++ List.replicate rest.length 0).take rest.length
        else List.replicate rest.length 0)

/-- The command that a write transaction makes when nCS rises (R182, R184): mosi are all the bytes shifted in; only command byte
0x01 writes, and a write that ends while BUSY is set is the discarded one. While power-on reset is held none is taken (R1); that this is
judged at the rise of nCS alone, for a transaction in progress when a reset begins or ends too, is the model's choice (log 26). -/
def commandOfTransaction (s : State) (mosi : List Byte) : Option Instr :=
  match mosi with
  | [] => none
  | command :: rest =>
    if command = 0x01#8 ∧ inReset s = false then some (if busy s then .frameWrittenWhileBusy else decodeFrame rest)
    else none

/-! ### Trains and their outputs -/

/-- The train record of a train. -/
def State.train (s : State) (t : TrainIx) : Train := s.trains.train.get t

/-- The train states in which PERMIT is asserted (R106). -/
def TrainState.permitted : TrainState → Bool
  | .starting | .ready | .running | .stopping => true
  | .outOfService | .idle | .cooldown | .tripped | .lockedOut => false

/-- The PERMIT output of a train (R106), released while power-on reset is held (R1). -/
def permit (s : State) (t : TrainIx) : Bool := !inReset s && (s.train t).state.permitted

/-- The train states in which the heater may be driven (R120). -/
def TrainState.heats : TrainState → Bool
  | .idle | .cooldown | .starting => true
  | .outOfService | .ready | .running | .stopping | .tripped | .lockedOut => false

/-- Whether a heater assignment asks for heat at the timers' present phases (R120). -/
def heaterDriven (ts : Trains) : Heater → Bool
  | .off => false
  | .on => true
  | .cycleA => decide (ts.timerA.phase < ts.timerA.onTime)
  | .cycleB => decide (ts.timerB.phase < ts.timerB.onTime)

/-- The HEAT output of an expander (R120), released while power-on reset is held (R1); a compressor has none. -/
def heatOutput (s : State) (t : TrainIx) : Bool :=
  !inReset s && decide (t.side = .discharge) && (s.train t).state.heats && heaterDriven s.trains (s.train t).heater

/-- The excursion state a side looks at (R102, R138). -/
def excursionOf (a : Account) : Side → Excursion
  | .charge => a.excHi
  | .discharge => a.excLo

/-- The plant is at rest (R117): no train is STARTING, READY, RUNNING or STOPPING. -/
def atRest (s : State) : Bool := TrainIx.all.all fun t => !(s.train t).state.permitted

/-- R9: the metered power of a train at a second: the measured power, or the setpoint while STALE is set. -/
def meteredPower (s : State) (t : TrainIx) : Nat :=
  if s.account.stale then (s.train t).setpoint else s.account.power.get t

/-- Every train of the side has setpoint 0 kW. -/
def sideAtZero (s : State) (side : Side) : Bool := side.trains.all fun t => (s.train t).setpoint == 0

/-- The TP_MAX of a train. -/
def tpMax (s : State) (t : TrainIx) : Nat := (s.limits.train.get t).tpMax

/-- R138: whether a train is available to the dispatcher. -/
def availableNow (s : State) (t : TrainIx) : Bool :=
  (match (s.train t).state with
    | .idle | .starting | .ready | .running => true
    | _ => false)
    && !(s.train t).startLimited && decide (excursionOf s.account t.side = .clear)

/-- A train's start time for its present class (R82, R102, R141). -/
def startTime (p : TrainParams) : TrainClass → Nat
  | .hot => p.startHot
  | .cold => p.startCold

/-! ### Stores -/

/-- The record of a store. -/
def State.store (s : State) (i : StoreIx) : Store := s.heat.store.get i

/-- R28, R42: the capacity of a store in MJ is CAP_HS of the limits record. -/
def capacityMj (s : State) (i : StoreIx) : Nat := s.limits.capHs.get i

def capacityKj (s : State) (i : StoreIx) : Nat := capacityMj s i * 1000

/-- R28: the room of a store in kJ. -/
def roomKj (s : State) (i : StoreIx) : Nat := capacityKj s i - (s.store i).contentKj

/-- R28: a store is full when its content is its capacity. -/
def isFull (s : State) (i : StoreIx) : Bool := decide (capacityKj s i ≤ (s.store i).contentKj)

/-- R28: the whole-MJ content. -/
def Store.contentMj (v : Store) : Nat := v.contentKj / 1000

/-- R28: the kJ remainder. -/
def Store.contentRem (v : Store) : Nat := v.contentKj % 1000

/-- Whether a store's list holds a train of the side. -/
def Store.holds (v : Store) (side : Side) : Bool := v.trains.any fun t => decide (t.side = side)

/-- R30: the state of a store follows its list unless it is ISOLATED. -/
def Store.state (v : Store) : StoreState :=
  if v.isolated then .isolated
  else if v.holds .charge then .charging
  else if v.holds .discharge then .discharging
  else .available

/-- R31: whether a train of the side may be placed on a store: AVAILABLE or the side's own state. -/
def Store.takes (v : Store) (side : Side) : Bool :=
  match v.state, side with
  | .available, _ => true
  | .charging, .charge => true
  | .discharging, .discharge => true
  | _, _ => false

/-- The store that holds a train, or none (R28, R99). -/
def trainStore (s : State) (t : TrainIx) : Option StoreIx := StoreIx.all.find? fun i => (s.store i).trains.contains t

/-! ### Entries -/

def EntryKind.side : EntryKind → Side
  | .energyCharge | .reserveDown => .charge
  | .energyDischarge | .reserveUp => .discharge

/-- The direction of a reserve entry's activation (R66). -/
def EntryKind.reserveDir : EntryKind → Option Dir
  | .reserveUp => some .up
  | .reserveDown => some .down
  | .energyCharge | .energyDischarge => none

/-- The last covered interval (R46). -/
def Entry.last (e : Entry) : Nat := e.first + e.span - 1

/-- R62: whether an entry covers an interval. -/
def Entry.covers (e : Entry) (n : Nat) : Bool := decide (e.first ≤ n) && decide (n ≤ e.last)

/-- ADMITTED or AT_RISK. -/
def EntryStatus.isOpen : EntryStatus → Bool
  | .admitted | .atRisk _ => true
  | .active | .delivered | .curtailed => false

/-- DELIVERED or CURTAILED. -/
def EntryStatus.isClosed : EntryStatus → Bool
  | .delivered | .curtailed => true
  | .admitted | .atRisk _ | .active => false

/-- The record that holds an id (R47). -/
def findEntry (s : State) (id : Nat) : Option Entry := s.table.entries.find? fun e => e.id == id

/-- The sum of power of the ACTIVE entries of a kind (R136, R157). -/
def activeSum (s : State) (k : EntryKind) : Nat :=
  ((s.table.entries.filter fun e => decide (e.kind = k) && decide (e.status = .active)).map (·.power)).sum

/-- The reserve kind of a direction (R155). -/
def reserveKind : Dir → EntryKind
  | .up => .reserveUp
  | .down => .reserveDown

/-- R155: whether the table holds an ACTIVE reserve entry of a direction. -/
def backed (s : State) (d : Dir) : Bool :=
  s.table.entries.any fun e => decide (e.kind = reserveKind d) && decide (e.status = .active)

/-! ### Activation records -/

/-- The activation record of a direction. -/
def State.act (s : State) : Dir → Activation
  | .up => s.orders.up
  | .down => s.orders.down

/-- R157: requested_kw: floor(level × H ÷ 100) while the record is ACTIVE, 0 otherwise. -/
def requestedKw (s : State) (d : Dir) : Nat :=
  if (s.act d).state = .active then (s.act d).level * activeSum s (reserveKind d) / 100 else 0

end Sys2Proof.Machine
end

