-- ==== Sys2Proof/Machine/Layout.lean ====
section
/-! DEFINITION. The bytes of replies: result codes (R188), scalar fields with the saturation of R202, the codes of enumerated
fields (R196), and the payloads of R198 and R205. -/

namespace Sys2Proof.Machine

/-- The RESULT codes (R188). -/
inductive Result where
  | ok | refusedInfeasible | tableFull | noSuchEntry | gateClosed | wrongState | notPermitted | badArgument | badFrame
  | unknownRequest | retryLater | locked | modeRefused | unavailable
deriving DecidableEq, Repr

def Result.code : Result → Byte
  | .ok => 0 | .refusedInfeasible => 1 | .tableFull => 2 | .noSuchEntry => 3 | .gateClosed => 4 | .wrongState => 5
  | .notPermitted => 6 | .badArgument => 7 | .badFrame => 8 | .unknownRequest => 9 | .retryLater => 10 | .locked => 11
  | .modeRefused => 12 | .unavailable => 13

/-- The bytes of a reply frame (R187, R197): LEN, CODE, RESULT, payload, CRC. -/
def replyFrame (code : Byte) (result : Result) (payload : List Byte) : List Byte :=
  let body := BitVec.ofNat 8 (payload.length + 2) :: code :: result.code :: payload
  body ++ [crc8 body]

/-! ### Scalars (R196, R202) -/

def u8 (n : Nat) : List Byte := [BitVec.ofNat 8 (min n 255)]
def u16 (n : Nat) : List Byte := halfBytes (BitVec.ofNat 16 (min n 65535))
def u32 (n : Nat) : List Byte := wordBytes (BitVec.ofNat 32 (min n 4294967295))
def i32 (z : Int) : List Byte := wordBytes (BitVec.ofInt 32 (max (-2147483648) (min z 2147483647)))
def flag (b : Bool) : List Byte := [if b then 1 else 0]

/-! ### Enumerated fields (R196) -/

def Basis.code : Basis → Nat
  | .unbased => 0 | .based => 1

def Excursion.code : Excursion → Nat
  | .clear => 0 | .active => 1 | .held => 2

def EntryKind.code : EntryKind → Nat
  | .energyCharge => 0 | .energyDischarge => 1 | .reserveUp => 2 | .reserveDown => 3

def EntryStatus.code : EntryStatus → Nat
  | .admitted => 0 | .atRisk _ => 1 | .active => 2 | .delivered => 3 | .curtailed => 4

def TrainState.code : TrainState → Nat
  | .outOfService => 0 | .idle => 1 | .starting => 2 | .ready => 3 | .running => 4 | .stopping => 5 | .cooldown => 6
  | .tripped => 7 | .lockedOut => 8

def TrainClass.code : TrainClass → Nat
  | .hot => 0 | .cold => 1

def Heater.code : Heater → Nat
  | .off => 0 | .on => 1 | .cycleA => 2 | .cycleB => 3

def StoreState.code : StoreState → Nat
  | .available => 0 | .charging => 1 | .discharging => 2 | .isolated => 3

def Action.code : Action → Nat
  | .activateUp => 0 | .activateDown => 1 | .releaseUp => 2 | .releaseDown => 3 | .releaseAll => 4

def ReleaseMode.code : ReleaseMode → Nat
  | .timed => 0 | .onOther => 1 | .onPattern => 2

def ActState.code : ActState → Nat
  | .idle => 0 | .confirming => 1 | .active => 2

def ReleaseReason.code : ReleaseReason → Nat
  | .none => 0 | .timed => 1 | .other => 2 | .pattern => 3 | .request => 4 | .backingEnded => 5 | .safe => 6
  | .restart => 7 | .opposite => 8

def Escalation.code : Escalation → Nat
  | .first => 0 | .second => 1

def ProjState.code : ProjState → Nat
  | .unavailable => 0 | .stale => 1 | .valid => 2

def Trial.code : Trial → Nat
  | .none => 0 | .waiting _ => 1 | .running _ _ => 2

def Capture.code : Capture → Nat
  | .boundary => 0 | .restart => 1 | .slip => 2

/-- Dispatch direction: CHARGE, DISCHARGE, NONE. -/
def dirCode : Option Side → Nat
  | some .charge => 0 | some .discharge => 1 | none => 2

/-- Activation direction: NONE, UP, DOWN. -/
def actDirCode : Option Dir → Nat
  | none => 0 | some .up => 1 | some .down => 2

def LiveLimit.code : LiveLimit → Nat
  | .none => 0 | .pMax => 1 | .pMin => 2 | .taper => 3 | .safe => 4

def SyncMode.code : SyncMode → Nat
  | .free => 0 | .pulse => 1

def Assembler.code : Assembler → Nat
  | .hunting => 0 | .collecting _ => 1

/-- The index of a store, 0 to 2 (R28). -/
def storeIndex (i : StoreIx) : Nat := StoreIx.all.idxOf i

/-- The packed verdict byte (R196): code in bits 0 to 3, direction in bit 4, unresolved in bit 7. -/
def packedVerdict (v : Verdict) (unresolved : Bool) : List Byte :=
  let base : Nat := match v with
    | .ok => 0 | .capability => 1 | .headroom .up => 2 | .headroom .down => 18 | .pressureHigh => 3 | .pressureLow => 4
    | .rate .rising => 5 | .rate .falling => 21 | .heatFull => 6 | .heatShort => 7
  u8 (base + if unresolved then 128 else 0)

/-! ### Payloads (R198, R205) -/

/-- POST_READING's reply: the seven setpoints. -/
def setpointBytes (s : State) : List Byte := TrainIx.all.flatMap fun t => u32 (s.train t).setpoint

/-- READ_ACCOUNT's payload, 61 bytes. -/
def accountBytes (a : Account) : List Byte :=
  u8 a.basis.code ++ u32 a.mass ++ u16 a.pCalc ++ u16 a.pMeas ++ u16 a.tMeas ++ a.power.toList.flatMap u32
    ++ u16 a.readingAge ++ u8 ((if a.stale then 1 else 0) + (if a.clamped then 2 else 0)) ++ u32 a.eC ++ u32 a.eE
    ++ u8 a.excHi.code ++ u8 a.excLo.code ++ u32 a.lastClose.charged ++ u32 a.lastClose.discharged
    ++ flag a.lastClose.rebased

/-- READ_STORE's payload, 31 bytes; empty train slots are 0xFF (R201). -/
def storeBytes (s : State) (i : StoreIx) : List Byte :=
  let v := s.store i
  u8 (storeIndex i) ++ u8 v.state.code ++ u32 v.contentMj ++ u16 v.contentRem ++ u32 (capacityMj s i)
    ++ u8 v.trains.length ++ (v.trains.flatMap (fun t => u8 (trainIndex t)) ++ List.replicate 4 0xFF#8).take 4
    ++ u32 s.heat.summary.pooledContent ++ u32 s.heat.summary.pooledCapacity ++ flag s.heat.summary.reject
    ++ flag s.heat.summary.taper ++ u32 s.heat.summary.taperCap

/-- The entry record in QUERY_ENTRY, 34 bytes: the layout table of R198 is read down its left column, then down its right one
(log 5). An absent risk is sent as 0 (R201). -/
def entryBytes (e : Entry) : List Byte :=
  let risk : List Byte := match e.status with
    | .atRisk r => flag true ++ packedVerdict r.verdict false ++ u32 r.interval
    | _ => flag false ++ u8 0 ++ u32 0
  u16 e.id ++ u8 e.kind.code ++ u8 e.status.code ++ u32 e.first ++ u8 e.span ++ u32 e.power ++ i32 e.price
    ++ u16 e.reference ++ u32 e.seq ++ risk ++ u32 e.delivered ++ u8 e.shortCount

/-- SETTLE's payload (R60, R205). -/
def settleBytes (e : Entry) : List Byte :=
  u8 e.kind.code ++ u32 e.first ++ u8 e.span ++ u32 e.power ++ u16 e.reference ++ u32 e.seq ++ u8 e.status.code
    ++ u32 e.delivered ++ u8 e.shortCount

/-- AMEND's payload (R55, R205). -/
def amendBytes (e : Entry) : List Byte := u32 e.power ++ i32 e.price ++ u16 e.reference ++ u8 e.status.code

/-- A SUMMARY row, 15 bytes. -/
def summaryBytes (r : Row) : List Byte :=
  u32 r.interval ++ i32 r.netKw ++ u16 r.pEnd ++ i32 r.heatEnd ++ packedVerdict r.verdict r.unresolved

/-- A FULL row, 57 bytes. -/
def fullBytes (r : Row) : List Byte :=
  u32 r.interval ++ u32 r.chargeKw ++ u32 r.dischargeKw ++ i32 r.netKw ++ u32 r.resUpKw ++ u32 r.resDnKw
    ++ u32 r.massStart ++ u32 r.massEnd ++ u16 r.pStart ++ u16 r.pEnd ++ i32 r.heatEnd ++ u32 r.capC ++ u32 r.capE
    ++ u32 r.quickC ++ u32 r.quickE ++ packedVerdict r.verdict r.unresolved

/-- PROJECTION_STATE's payload (R76, R205). -/
def projectionBytes (p : Projection) : List Byte :=
  u8 p.state.code ++ u32 p.baseInterval ++ flag p.walk.isSome ++ u8 p.trial.code ++ u8 p.restarts ++ u32 p.completed
    ++ u8 p.passes ++ u8 p.demoted ++ u8 p.recovered ++ u8 p.unresolvedCount ++ flag p.firstUnresolved.isSome
    ++ u32 (p.firstUnresolved.getD 0)

/-- A heater cycle timer: period, on_time, phase. -/
def cycleBytes (c : Cycle) : List Byte := u16 c.period ++ u16 c.onTime ++ u16 c.phase

/-- READ_TRAIN's payload, 44 bytes. -/
def trainBytes (s : State) (t : TrainIx) : List Byte :=
  let v := s.train t
  u8 (trainIndex t) ++ u8 (if t.side = .charge then 0 else 1) ++ u8 v.state.code ++ u32 v.setpoint
    ++ u32 (s.account.power.get t) ++ u8 v.startClass.code ++ u16 v.stateTimer ++ u32 v.runTime ++ u32 v.downSince
    ++ u8 v.startsToday ++ u8 v.tripsToday ++ u8 v.rank ++ u8 ((trainStore s t).elim 255 storeIndex)
    ++ u8 v.heater.code ++ flag v.warm ++ flag v.tripLine
    ++ u8 ((if v.startLimited then 1 else 0) + (if v.excursionStopped then 2 else 0)) ++ flag (permit s t)
    ++ flag (heatOutput s t) ++ cycleBytes s.trains.timerA ++ cycleBytes s.trains.timerB

/-- The pattern, 12 bytes. -/
def patternBytes (p : Pattern) : List Byte :=
  flag p.enabled ++ [p.codeA, p.maskA, p.codeB, p.maskB] ++ u8 p.action.code ++ u8 p.releaseMode.code ++ u16 p.hold
    ++ u8 p.partner.val ++ flag p.confirm ++ u8 p.confirmWindow

/-- Every field of an activation record, in the order of R153's table. -/
def activationBytes (s : State) (d : Dir) : List Byte :=
  let a := s.act d
  u8 a.state.code ++ u8 a.pattern.val ++ u8 a.level ++ u32 (requestedKw s d) ++ u16 a.holdLeft ++ u8 a.confirmLeft
    ++ u8 a.lastRelease.code ++ u32 a.servedKj ++ u32 a.requestedKj ++ u32 a.closing.interval ++ u32 a.closing.servedKj
    ++ u32 a.closing.requestedKj

/-- ORDER_STATE's payload (R164, R205). -/
def orderStateBytes (s : State) : List Byte :=
  activationBytes s .up ++ activationBytes s .down ++ u32 (s.orders.up.closing.requestedKj / 3600)
    ++ u32 (s.orders.down.closing.requestedKj / 3600) ++ u16 s.orders.received ++ u16 s.orders.unmatched
    ++ u16 s.orders.discarded ++ u8 s.orders.assembler.code

/-- ORDER_RELEASE's payload (R163): state and last_release of UP, then of DOWN (log 5). -/
def orderReleaseBytes (s : State) : List Byte :=
  u8 s.orders.up.state.code ++ u8 s.orders.up.lastRelease.code ++ u8 s.orders.down.state.code
    ++ u8 s.orders.down.lastRelease.code

/-- The clock record (R127, R205). -/
def clockBytes (c : Clock) : List Byte :=
  flag c.running ++ u32 c.n ++ u16 c.s ++ u16 c.dayPos ++
    match c.lastCapture with
    | none => flag false ++ u16 0 ++ u8 0
    | some (v, k) => flag true ++ u16 v ++ u8 k.code

/-- A set of train indices as a u8 (R205). -/
def trainSetBytes (l : List TrainIx) : List Byte :=
  u8 ((TrainIx.all.map fun t => if l.contains t then 2 ^ trainIndex t else 0).sum)

/-- The dispatch record (R134, R205). -/
def dispatchBytes (d : Dispatch) : List Byte :=
  i32 d.tSched ++ u8 (actDirCode d.actDir) ++ u32 d.actKw ++ i32 d.target ++ u8 d.limit.code ++ u8 (dirCode d.dir)
    ++ u8 d.commit.length ++ (d.commit.flatMap (fun t => u8 (trainIndex t)) ++ List.replicate 4 0xFF#8).take 4
    ++ trainSetBytes d.need ++ d.share.toList.flatMap u32 ++ d.hold.toList.flatMap flag ++ i32 d.schedKj ++ i32 d.delKj
    ++ u32 d.closing.interval ++ u8 (dirCode d.closing.direction) ++ u32 d.closing.scheduled ++ u32 d.closing.deliveredKj
    ++ u16 d.closing.fraction

/-- CLOCK_READ's payload (R133): the clock record with D, L_INT and SYNC_MODE, then the dispatch record. -/
def clockReadBytes (s : State) : List Byte :=
  clockBytes s.clock ++ u16 (intervalsPerDay s.limits) ++ u16 s.limits.lInt ++ u8 s.limits.syncMode.code
    ++ dispatchBytes s.dispatch

/-- The supervision record (R175, R205). -/
def supervisionBytes (v : Supervision) : List Byte :=
  u8 v.timeout ++ flag v.window ++ flag v.anyRequest ++ flag v.reading ++ u8 v.escalation.code ++ u8 v.failures
    ++ u8 v.remaining

/-- The mode and failures (R169, R170, R179). -/
def modeBytes (s : State) : List Byte := u8 (modeCode s.mode) ++ u8 s.supervision.failures

end Sys2Proof.Machine
end

