-- ==== Sys2Proof/Machine/Ops.lean ====
section
/-! DEFINITION. The shared operations on the state: one record of one block, notices, the port's acceptance and reply, the
handling every request frame gets before its owner (R184, R186, R200), store assignment and release (R31, R32), and the
projection engine's response to a basis change (R77, R78, R94). The part has no exception entry: nothing here saves or restores a
context. -/

namespace Sys2Proof.Machine

/-! ### One record -/

def State.setTrain (s : State) (t : TrainIx) (v : Train) : State :=
  s.withTrains { s.trains with train := s.trains.train.set t v }

def State.setStore (s : State) (i : StoreIx) (v : Store) : State :=
  s.withHeat { s.heat with store := s.heat.store.set i v }

def State.setSummary (s : State) (v : HeatSummary) : State := s.withHeat { s.heat with summary := v }

def State.setAct (s : State) (d : Dir) (v : Activation) : State :=
  match d with
  | .up => s.withOrders { s.orders with up := v }
  | .down => s.withOrders { s.orders with down := v }

def State.setEntries (s : State) (v : List Entry) : State := s.withTable { s.table with entries := v }

/-! ### Power-on reset (R1) -/

/-- R1, R128: while power-on reset is held nothing that comes from outside is taken and the clock raises no second: the event
changes nothing. -/
def unlessHeld (f : State → State) (s : State) : State := if inReset s then s else f s

/-! ### Notices -/

/-- R189: a latched notice enters the pending set. -/
def raise (n : Notice) (s : State) : State := s.withPort { s.port with latched := s.port.latched ||| n.bit }

/-! ### The port -/

/-- R187: a reply is placed: BUSY clears and REPLY is set within one event. -/
def answer (code : Byte) (r : Result) (payload : List Byte) (s : State) : State :=
  s.withPort { s.port with reply := replyFrame code r payload, inFlight := none }

/-- R184: a frame written while BUSY is discarded unread. -/
def discardFrame (s : State) : State := s.withPort { s.port with overrun := true }

/-- R184: a frame is accepted: the previous reply is emptied, REPLY and OVERRUN become clear. -/
def acceptFrame (s : State) : State := s.withPort { s.port with reply := [], overrun := false }

/-- R176: reloading the timer sets remaining to timeout. -/
def reloadTimer (s : State) : State :=
  s.withSupervision { s.supervision with remaining := s.supervision.timeout }

/-- R177, R186: the ANY_REQUEST source: a request frame refreshes the timer if the source is selected and window is off. -/
def refreshAny (s : State) : State :=
  if s.supervision.anyRequest && !s.supervision.window then reloadTimer s else s

/-- R177: the READING source. -/
def refreshReading (s : State) : State :=
  if s.supervision.reading && !s.supervision.window then reloadTimer s else s

/-- R186: the permission table. -/
def permitted : Request → Client → Bool
  | .admitEntry, c => c == .trading
  | .amend, _ | .withdraw, _ | .settle, _ | .queryEntry, _ | .findInterval, _ | .findReference, _
  | .projectionState, _ | .readProjection, _ | .readNext, _ | .readTrain, _ | .clockRead, _
  | .notices, _ | .noticeMaskSet, _ | .noticeMaskClear, _ | .identify, _ => true
  | .postReading, c | .readAccount, c | .rebase, c | .excursionClear, c | .storeService, c | .storeSet, c | .readStore, c
  | .trainService, c | .trainReset, c | .trainUnlock, c | .trainPriority, c | .heaterAssign, c | .heaterTimer, c
  | .patternWrite, c | .patternRead, c | .orderState, c | .orderRelease, c | .clockSet, c
  | .paramWrite, c | .paramRead, c | .lockLimits, c | .supervisionSet, c | .keepalive, c | .forceExpiry, c | .resume, c
  | .recover, c | .enterHold, c | .enterSafe, c | .restart, c => c == .plant

/-- What the port does with the frame of a request (R1, R184, R186, R200): not taken while power-on reset is held; discarded while
BUSY; else accepted, handed to the
ANY_REQUEST source, refused for the client or the payload length, or handed to its owner, which places the reply. -/
def takeRequest (r : Request) (h : Head) (owner : State → State) (s : State) : State :=
  if inReset s then s
  else if busy s then discardFrame s
  else if !permitted r h.client then answer r.code .notPermitted [] (refreshAny (acceptFrame s))
  else if !r.lengthOk h.len then answer r.code .badArgument [] (refreshAny (acceptFrame s))
  else owner (refreshAny (acceptFrame s))

/-! ### Stores: assignment and release -/

/-- The index with the largest figure, the lower index among equals (R31, R34, R36). -/
def largest (f : StoreIx → Nat) : List StoreIx → Option StoreIx
  | [] => none
  | i :: is =>
    match largest f is with
    | none => some i
    | some j => if f j ≤ f i then some i else some j

/-- R31: what a train of a side looks for in a store: room, or content. -/
def storeFigure (s : State) (side : Side) (i : StoreIx) : Nat :=
  match side with
  | .charge => roomKj s i
  | .discharge => (s.store i).contentKj

/-- R31: the store a train of a side is given. -/
def chooseStore (s : State) (side : Side) : Option StoreIx :=
  largest (storeFigure s side) (StoreIx.all.filter fun i => (s.store i).takes side)

/-- R31: the train is appended to the list of the store it is given; with none eligible it is on no store. -/
def assignStore (t : TrainIx) (s : State) : State :=
  match chooseStore s t.side with
  | none => s
  | some i => s.setStore i { s.store i with trains := (s.store i).trains ++ [t] }

/-- R32: the train is removed from the list that holds it. -/
def releaseStore (t : TrainIx) (s : State) : State :=
  s.withHeat
    { s.heat with store := PerStore.ofFn fun i => { s.store i with trains := (s.store i).trains.filter (· ≠ t) } }

/-- R28: pooled_content and pooled_capacity, over the stores that are not ISOLATED. -/
def pooledContent (s : State) : Nat :=
  ((StoreIx.all.filter fun i => !(s.store i).isolated).map fun i => (s.store i).contentMj).sum

def pooledCapacity (s : State) : Nat :=
  ((StoreIx.all.filter fun i => !(s.store i).isolated).map fun i => capacityMj s i).sum

/-- R38, R40, R41, R42: the pooled figures are recomputed. -/
def recomputePools (s : State) : State :=
  s.setSummary { s.heat.summary with pooledContent := pooledContent s, pooledCapacity := pooledCapacity s }

/-! ### The projection engine: starting walks and taking basis changes -/

/-- The response that is due. -/
def Due.part : Due → Part
  | .second p | .boundary _ p => p

/-- Whether a response is due to a boundary. -/
def Due.toBoundary : Due → Bool
  | .second _ => false
  | .boundary _ _ => true

/-- R69, R90: the interval a block stands in, p being its response to a boundary: the current one, or, while that response is due, the one
the boundary ended. -/
def intervalOf (p : Part) (s : State) : Nat :=
  match s.due.find? fun d => d.toBoundary && decide (d.part = p) with
  | some (.boundary b _) => b.ended
  | _ => s.clock.n

/-- R79: the inputs a full walk takes when it starts on the interval base. -/
def walkInputsAt (base : Nat) (s : State) : WalkInputs :=
  { mass := s.account.mass
    tdk := s.account.tMeas
    heat := s.heat.summary.pooledContent
    poolCapacity := s.heat.summary.pooledCapacity
    entries := s.table.entries.filter fun e => !e.status.isClosed
    trains := PerTrain.ofFn fun t => ⟨(s.train t).state, (s.train t).startClass, (s.train t).rank⟩
    limits := s.limits
    base }

/-- R79: the inputs of a full walk, on the interval clock's current number. -/
def walkInputs (s : State) : WalkInputs := walkInputsAt s.clock.n s

/-- R77, R78: the state becomes STALE, a running full walk is abandoned, and a new one takes its inputs. -/
def startWalkAt (base : Nat) (s : State) : State :=
  s.withProj { s.proj with state := .stale, walk := some (walkInputsAt base s) }

def startWalk (s : State) : State := startWalkAt s.clock.n s

/-- The CODE of the request in flight (R187). -/
def InFlight.code : InFlight → Byte
  | .admitEntry => Request.admitEntry.code
  | .amend _ _ _ _ _ => Request.amend.code

/-- A reply to the request in flight; none without one. -/
def answerInFlight (r : Result) (payload : List Byte) (s : State) : State :=
  match s.port.inFlight with
  | none => s
  | some f => answer f.code r payload s

/-- The trial is over: trial and restarts return to NONE and 0 (R93, R94). -/
def endTrial (s : State) : State := s.withProj { s.proj with trial := .none, restarts := 0 }

/-- R94: a basis change counted against the trial in hand; the fifth ends it with RETRY_LATER. -/
def countRestart (s : State) : State :=
  match s.proj.trial with
  | .none => s
  | .waiting c | .running c _ =>
    if s.proj.restarts < 4 then
      s.withProj { s.proj with trial := .waiting c, restarts := s.proj.restarts + 1 }
    else answerInFlight .retryLater [] (endTrial s)

/-- R77, R78, R94: the engine's response to a basis change, with the interval that a walk it starts takes. -/
def basisChangeAt (base : Nat) (s : State) : State :=
  match s.proj.state with
  | .unavailable =>
    if s.account.basis = .based ∧ s.clock.running = true then startWalkAt base s else s
  | .stale | .valid => countRestart (startWalkAt base s)

/-- R77 to R79: a basis change; the walk takes the clock's current number. -/
def basisChange (s : State) : State := basisChangeAt s.clock.n s

/-- R90: the basis change of the close. Taken before the engine has taken the boundary, its walk has the interval that ended. That this
holds of the close alone, and every other walk takes the clock's number (R79), is the model's reading (log 25). -/
def closeBasisChange (s : State) : State := basisChangeAt (intervalOf .projectionBoundary s) s

end Sys2Proof.Machine
end

