-- ==== Sys2Proof/Machine/Walk.lean ====
section
/-! DEFINITION. The arithmetic of a projection walk: rows (R80 to R85), the demotion loop (R86 to R88), the outcome (R89), and the
rows and judgement of a trial (R92, R93). -/

namespace Sys2Proof.Machine

/-- What a row starts from (R80): mass, pressure and heat. -/
structure Carried where
  mass : Nat
  p : Nat
  heat : Nat
deriving DecidableEq, Repr

/-- Where an interval with a given net power ends (R83, R84). -/
structure Moved where
  mass : Nat
  p : Nat
  heat : Int
deriving DecidableEq, Repr

/-! ### What the trains can do (R82) -/

/-- The train states that are not available to the projection. -/
def TrainState.projectable : TrainState → Bool
  | .outOfService | .tripped | .lockedOut => false
  | .idle | .starting | .ready | .running | .stopping | .cooldown => true

/-- The available trains of a side. -/
def walkAvailable (w : WalkInputs) (side : Side) : List TrainIx :=
  side.trains.filter fun t => (w.trains.get t).state.projectable

def walkTpMax (w : WalkInputs) (t : TrainIx) : Nat := (w.limits.train.get t).tpMax

/-- cap_c and cap_e. -/
def capability (w : WalkInputs) (side : Side) : Nat := sumOver (walkTpMax w) (walkAvailable w side)

/-- The committed set of a row with this net power. -/
def walkCommitted (w : WalkInputs) (net : Int) : List TrainIx :=
  match sideOf net with
  | none => []
  | some side =>
    shortestRun (walkTpMax w) net.natAbs (byRank (fun t => (w.trains.get t).rank) (walkAvailable w side))

/-- Whether a train's start for its present class is within T_FA. -/
def startsQuickly (w : WalkInputs) (t : TrainIx) : Bool :=
  decide (startTime (w.limits.train.get t) (w.trains.get t).startClass ≤ w.limits.tFa)

/-- quick_c and quick_e. -/
def quickCapability (w : WalkInputs) (net : Int) (side : Side) : Nat :=
  sumOver (walkTpMax w) <| (walkAvailable w side).filter fun t =>
    (walkCommitted w net).contains t || decide ((w.trains.get t).state = .ready)
      || decide ((w.trains.get t).state = .running) || startsQuickly w t

/-! ### Moving air and heat (R83, R84) -/

/-- R83: mass at the end of the interval. -/
def movedMass (w : WalkInputs) (c : Carried) (net : Int) : Nat :=
  match sideOf net with
  | none => min 100000000 c.mass
  | some .charge => min 100000000 (c.mass + net.natAbs * w.limits.lInt / workC w.limits c.p)
  | some .discharge => min 100000000 (c.mass - ceilDiv (net.natAbs * w.limits.lInt) (workE w.limits c.p))

/-- R84 step 1: heat after the movement, signed. -/
def movedHeat (w : WalkInputs) (c : Carried) (net : Int) : Int :=
  match sideOf net with
  | none => c.heat
  | some .charge => c.heat + (net.natAbs * w.limits.lInt * w.limits.hC / 1000000 : Nat)
  | some .discharge => c.heat - (ceilDiv (net.natAbs * w.limits.lInt * w.limits.hE) 1000000 : Nat)

/-- R84 step 2: the standing loss of a heat figure above 0. -/
def afterLoss (w : WalkInputs) (h : Int) : Int :=
  if 0 < h then h - (ceilDiv (h.toNat * w.limits.loss) 100000 : Nat) else h

/-- R83, R84: one interval at a net power. -/
def moved (w : WalkInputs) (c : Carried) (net : Int) : Moved :=
  let m := movedMass w c net
  { mass := m, p := pressureFromMass w.limits m w.tdk, heat := afterLoss w (movedHeat w c net) }

/-! ### Rows (R80, R81, R85) -/

/-- R81: the sum of power of the included entries of a kind that cover an interval. -/
def coverSum (included : List Entry) (k : EntryKind) (n : Nat) : Nat :=
  ((included.filter fun e => decide (e.kind = k) && e.covers n).map (·.power)).sum

/-- R85: the net of the up what-if. -/
def upNet (net : Int) (resUp : Nat) : Int := if net < 0 then min (net + resUp) 0 else net + resUp

/-- R85: the net of the down what-if. -/
def downNet (net : Int) (resDn : Nat) : Int := if 0 < net then max (net - resDn) 0 else net - resDn

/-- R85 test 5: the direction in which the end pressure breaks DP_MAX, if it does. -/
def rateBreak (w : WalkInputs) (pStart pEnd : Nat) : Option RateDir :=
  if ((pEnd : Int) - pStart).natAbs > w.limits.dpMax then some (if pStart < pEnd then .rising else .falling) else none

/-- What the verdict of a row is judged on. -/
structure Judged where
  net : Int
  resUp : Nat
  resDn : Nat
  capC : Nat
  capE : Nat
  quickC : Nat
  quickE : Nat
  pStart : Nat
  sched : Moved
  up : Moved
  down : Moved

/-- R85: the first test that fails. -/
def verdictOf (w : WalkInputs) (j : Judged) : Verdict :=
  let l := w.limits
  if (j.net < 0 ∧ j.capC < j.net.natAbs) ∨ (0 < j.net ∧ j.capE < j.net.natAbs) then .capability
  else if (j.net < 0 ∧ j.net.natAbs < j.resUp) ∨ (0 ≤ j.net ∧ (j.quickE : Int) - j.net < j.resUp) then .headroom .up
  else if (0 < j.net ∧ j.net < j.resDn) ∨ (j.net ≤ 0 ∧ (j.quickC : Int) - j.net.natAbs < j.resDn) then .headroom .down
  else if l.pMax < j.sched.p ∨ l.pMax < j.down.p then .pressureHigh
  else if j.sched.p < l.pMin ∨ j.up.p < l.pMin then .pressureLow
  else
    match (rateBreak w j.pStart j.sched.p).or ((rateBreak w j.pStart j.up.p).or (rateBreak w j.pStart j.down.p)) with
    | some d => .rate d
    | none =>
      if (w.poolCapacity : Int) < j.sched.heat ∨ (w.poolCapacity : Int) < j.down.heat then .heatFull
      else if j.sched.heat < 0 ∨ j.up.heat < 0 then .heatShort
      else .ok

/-- R75, R80 to R85: row k of a walk, from what it starts with. -/
def computeRow (w : WalkInputs) (included : List Entry) (k : Nat) (c : Carried) : Row :=
  let n := (w.base + k) % 4294967296
  let charge := coverSum included .energyCharge n
  let discharge := coverSum included .energyDischarge n
  let net : Int := (discharge : Int) - charge
  let resUp := coverSum included .reserveUp n
  let resDn := coverSum included .reserveDown n
  let capC := capability w .charge
  let capE := capability w .discharge
  let quickC := quickCapability w net .charge
  let quickE := quickCapability w net .discharge
  let sched := moved w c net
  { interval := n, chargeKw := charge, dischargeKw := discharge, netKw := net, resUpKw := resUp, resDnKw := resDn
    massStart := c.mass, massEnd := sched.mass, pStart := c.p, pEnd := sched.p, heatEnd := sched.heat
    capC, capE, quickC, quickE
    verdict := verdictOf w
      { net, resUp, resDn, capC, capE, quickC, quickE, pStart := c.p, sched
        up := moved w c (upNet net resUp), down := moved w c (downNet net resDn) }
    unresolved := false }

/-- R80: row 0 starts from the walk's inputs. -/
def firstCarried (w : WalkInputs) : Carried :=
  { mass := w.mass, p := pressureFromMass w.limits w.mass w.tdk, heat := w.heat }

/-- R80: a later row starts where the row before it ended, its heat saturated to 0..pooled capacity. -/
def carriedFrom (w : WalkInputs) (r : Row) : Carried :=
  { mass := r.massEnd, p := r.pEnd, heat := clampInt 0 w.poolCapacity r.heatEnd }

/-- n rows from row k on. -/
def rowsFrom (w : WalkInputs) (included : List Entry) : Nat → Nat → Carried → List Row
  | _, 0, _ => []
  | k, n + 1, c =>
    let r := computeRow w included k c
    r :: rowsFrom w included (k + 1) n (carriedFrom w r)

/-- One pass: rows 0 to 191 (R79). -/
def passRows (w : WalkInputs) (included : List Entry) : List Row := rowsFrom w included 0 192 (firstCarried w)

/-! ### The demotion loop (R86, R87) -/

/-- R87: whether a kind feeds the verdict of a row. -/
def feeds (r : Row) (k : EntryKind) : Bool :=
  match r.verdict with
  | .ok => false
  | .pressureHigh | .heatFull | .rate .rising => decide (k = .energyCharge) || decide (k = .reserveDown)
  | .pressureLow | .heatShort | .rate .falling => decide (k = .energyDischarge) || decide (k = .reserveUp)
  | .capability =>
    (decide (k = .energyCharge) && decide (r.netKw < 0)) || (decide (k = .energyDischarge) && decide (0 < r.netKw))
  | .headroom .up => decide (k = .reserveUp)
  | .headroom .down => decide (k = .reserveDown)

/-- R87: the lower price is demoted first, the higher seq among equal prices. -/
def demotedBefore (a b : Entry) : Bool :=
  decide (a.price < b.price) || (decide (a.price = b.price) && decide (b.seq < a.seq))

/-- The entry that is demoted first. -/
def firstDemoted : List Entry → Option Entry
  | [] => none
  | e :: es =>
    match firstDemoted es with
    | none => some e
    | some f => if demotedBefore f e then some f else some e

/-- R86: the entry the loop excludes for row r: included, ADMITTED or AT_RISK, covering the row, of a kind that feeds its verdict,
and not covering row 0 (R88: the loop never excludes such an entry; log 6). -/
def demotionCandidate (w : WalkInputs) (included : List Entry) (r : Row) : Option Entry :=
  firstDemoted <| included.filter fun e =>
    e.status.isOpen && e.covers r.interval && feeds r e.kind && !e.covers w.base

/-- R86: the search from the lowest row on: the rows without a candidate are marked, the first with one ends the search. -/
def searchRows (w : WalkInputs) (included : List Entry) :
    List (Nat × Row) → List Nat → List Nat × Option (Entry × Risk)
  | [], marks => (marks, none)
  | (k, r) :: rest, marks =>
    if r.verdict = .ok ∨ k ∈ marks then searchRows w included rest marks
    else
      match demotionCandidate w included r with
      | some e => (marks, some (e, ⟨r.verdict, r.interval⟩))
      | none => searchRows w included rest (marks ++ [k])

/-- Rows with their positions. -/
def numbered : Nat → List Row → List (Nat × Row)
  | _, [] => []
  | k, r :: rs => (k, r) :: numbered (k + 1) rs

/-- What the demotion loop ends with. -/
structure LoopEnd where
  rows : List Row
  included : List Entry
  excluded : List (Entry × Risk)
  marks : List Nat
  passes : Nat

/-- R86: the loop; each exclusion takes one entry out, so fuel for one pass more than there are entries never runs out. -/
def demotionLoop (w : WalkInputs) : Nat → List Entry → List (Entry × Risk) → List Nat → Nat → LoopEnd
  | fuel, included, excluded, marks, passes =>
    let rows := passRows w included
    let found := searchRows w included ((numbered 0 rows).drop 1) marks
    match fuel, found.2 with
    | _, none | 0, _ => ⟨rows, included, excluded, found.1, passes + 1⟩
    | fuel + 1, some (e, risk) =>
      demotionLoop w fuel (included.erase e) (excluded ++ [(e, risk)]) found.1 (passes + 1)

/-- R88: the rows with their unresolved flags. -/
def flagRows (marks : List Nat) (rows : List Row) : List Row :=
  (numbered 0 rows).map fun (k, r) =>
    { r with unresolved := decide (r.verdict ≠ .ok) && (decide (k = 0) || decide (k ∈ marks)) }

/-- R88: the risk of a stranded entry: the lowest unresolved row it covers. -/
def strandedRisk (rows : List Row) (e : Entry) : Option Risk :=
  if e.status.isOpen then
    (rows.find? fun r => r.unresolved && e.covers r.interval).map fun r => ⟨r.verdict, r.interval⟩
  else none

/-- The outcome of a full walk (R89): excluded and stranded entries, and included entries that were AT_RISK at the start. -/
structure Outcome where
  excluded : List (Nat × Nat × Risk)
  included : List (Nat × Nat)
deriving DecidableEq, Repr

/-- What a full walk ends with. -/
structure WalkEnd where
  rows : List Row
  passes : Nat
  outcome : Outcome

def EntryStatus.isAtRisk : EntryStatus → Bool
  | .atRisk _ => true
  | .admitted | .active | .delivered | .curtailed => false

/-- R79 to R89: a full walk from its inputs to its outcome. -/
def fullWalk (w : WalkInputs) : WalkEnd :=
  let e := demotionLoop w w.entries.length w.entries [] [] 0
  let rows := flagRows e.marks e.rows
  { rows
    passes := e.passes
    outcome :=
      { excluded := e.excluded.map (fun (x, r) => (x.id, x.seq, r))
          ++ e.included.filterMap (fun x => (strandedRisk rows x).map fun r => (x.id, x.seq, r))
        included := (e.included.filter fun x => x.status.isAtRisk && (strandedRisk rows x).isNone).map
          fun x => (x.id, x.seq) } }

/-! ### Trials (R91, R92, R93) -/

/-- R91: the included set of a trial that starts on these entries. -/
def trialIncluded (entries : List Entry) (c : Candidate) : List Entry :=
  (entries.filter fun e =>
    (decide (e.status = .admitted) || decide (e.status = .active)) && !(c.amends && e.id == c.entry.id)) ++ [c.entry]

/-- R92: the trial walk does not start on a walk basis whose rows end before the candidate does. -/
def trialReaches (base : Nat) (c : Candidate) : Bool := decide (c.entry.last ≤ base + 191)

/-- R92: the position of the first row a trial computes: the candidate's first row, or row 0. -/
def trialFirstRow (base : Nat) (c : Candidate) : Nat := c.entry.first - base

/-- R92: the rows of a trial, from its first row on, over the walk basis and the rows as they stand. -/
def trialRows (w : WalkInputs) (rows : List Row) (c : Candidate) (included : List Entry) : List Row :=
  match trialFirstRow w.base c with
  | 0 => rowsFrom w included 0 192 (firstCarried w)
  | j + 1 => rowsFrom w included (j + 1) (191 - j) (carriedFrom w (rows.getD j Row.blank))

/-- R93: whether row k refuses the candidate: it is covered and fails, or it comes after and fails where the table's row does
not. -/
def rowRefuses (base : Nat) (c : Candidate) (old : List Row) (k : Nat) (r : Row) : Bool :=
  decide (r.verdict ≠ .ok)
    && (decide (base + k ≤ c.entry.last) || decide ((old.getD k Row.blank).verdict = .ok))

/-- R93: the judgement of a trial: none accepts, otherwise the verdict and interval of the lowest row that refuses. -/
def trialJudgement (w : WalkInputs) (rows : List Row) (c : Candidate) (included : List Entry) : Option Risk :=
  ((numbered (trialFirstRow w.base c) (trialRows w rows c included)).find? fun (k, r) =>
    rowRefuses w.base c rows k r).map fun (_, r) => ⟨r.verdict, r.interval⟩

end Sys2Proof.Machine
end

