-- ==== Sys2Proof/Machine/Trains.lean ====
section
/-! DEFINITION. The train sequencer (spec 05): transitions, dispatcher requests, trips, forced stops, the second, heaters, and the
meanings of the train commands. -/

namespace Sys2Proof.Machine

/-! ### Start class (R119) and the writing of a train record -/

/-- R119: the class a judgement gives a train record. -/
def judgedClass (l : Limits) (t : TrainIx) (v : Train) : TrainClass :=
  match v.state with
  | .starting => v.startClass
  | .ready | .running | .stopping => .hot
  | .outOfService | .idle | .cooldown | .tripped | .lockedOut =>
    if v.downSince ≤ l.hotWindow ∧ (t.side = .charge ∨ v.warm = true) then .hot else .cold

/-- The record with its class judged. -/
def classed (l : Limits) (t : TrainIx) (v : Train) : Train := { v with startClass := judgedClass l t v }

/-- R119: a record is written with its class judged, and a change of class hands on a basis change. A walk that this restarts takes its
inputs at once, with the trains not yet handled in the same response as they stood before it: the model's choice (log 22). -/
def putTrain (t : TrainIx) (v : Train) (s : State) : State :=
  let s' := s.setTrain t (classed s.limits t v)
  if judgedClass s.limits t v = (s.train t).startClass then s' else basisChange s'

/-- R119: a record is written with its class judged, in an event that hands on a basis change of its own. -/
def putTrainCovered (t : TrainIx) (v : Train) (s : State) : State := s.setTrain t (classed s.limits t v)

/-- The parameters of a train. -/
def paramsOf (s : State) (t : TrainIx) : TrainParams := s.limits.train.get t

/-! ### Transitions -/

/-- R103: STARTING to READY. -/
def enterReady (t : TrainIx) (s : State) : State :=
  raise .trainEvent <|
    putTrain t { s.train t with state := .ready, stateTimer := (paramsOf s t).readyMax, setpoint := 0 } s

/-- R108: the effects of every entry into STOPPING, on a record v of the train. -/
def stopFrom (t : TrainIx) (v : Train) (s : State) : State :=
  putTrain t
    { v with
      state := .stopping, stateTimer := (paramsOf s t).stopTime, setpoint := 0, downSince := 0
      warm := decide (t.side = .discharge) && decide (v.heater ≠ .off) }
    (releaseStore t s)

/-- R108: entry into STOPPING. -/
def enterStopping (t : TrainIx) (s : State) : State := stopFrom t (s.train t) s

/-- Entry into COOLDOWN, from STOPPING or by a request (R109, R112, R113, R114), as a record. -/
def cooled (s : State) (t : TrainIx) : Train :=
  { s.train t with state := .cooldown, stateTimer := (paramsOf s t).minDown }

/-- R109: STOPPING to COOLDOWN. -/
def enterCooldown (t : TrainIx) (s : State) : State := raise .trainEvent (putTrain t (cooled s t) s)

/-- R109: COOLDOWN to IDLE. -/
def enterIdle (t : TrainIx) (s : State) : State :=
  raise .trainEvent (putTrain t { s.train t with state := .idle, stateTimer := 0 } s)

/-- R101 step 1: the expiry of the present state's timer. -/
def expire (t : TrainIx) (s : State) : State :=
  match (s.train t).state with
  | .starting => enterReady t s
  | .ready => enterStopping t s
  | .stopping => enterCooldown t s
  | .cooldown => enterIdle t s
  | .outOfService | .idle | .running | .tripped | .lockedOut => s.setTrain t { s.train t with stateTimer := 0 }

/-! ### Dispatcher requests -/

/-- R102 steps 1 to 3: the checks of a start before the start limit. -/
def startJudged (s : State) (t : TrainIx) : Bool :=
  decide ((s.train t).state = .idle) && decide (s.mode = .normal) && decide (excursionOf s.account t.side = .clear)

/-- R102: a start request. -/
def requestStart (t : TrainIx) (s : State) : State :=
  let v := s.train t
  if !startJudged s t then s
  else if s.limits.startsMax ≤ v.startsToday then
    if v.startLimited then s else raise .trainEvent (s.setTrain t { v with startLimited := true })
  else
    putTrain t
      { v with
        state := .starting, stateTimer := startTime (paramsOf s t) v.startClass, startsToday := v.startsToday + 1 } s

/-- R105: whether a load is taken. -/
def loadTaken (s : State) (t : TrainIx) : Bool :=
  decide ((s.train t).state = .ready) && decide (s.mode ≠ .safe) && sideAtZero s t.side.other

/-- R105: a load request. -/
def requestLoad (t : TrainIx) (s : State) : State :=
  if loadTaken s t then
    raise .trainEvent <| assignStore t <|
      putTrain t
        { s.train t with state := .running, setpoint := (paramsOf s t).tpMin, runTime := 0, stateTimer := 0 } s
  else s

/-- R106: a setpoint request. -/
def requestSetpoint (t : TrainIx) (kw : Nat) (s : State) : State :=
  let v := s.train t
  let x := clampNat (paramsOf s t).tpMin (paramsOf s t).tpMax kw
  if v.state ≠ .running ∨ (0 < x ∧ sideAtZero s t.side.other = false) then s
  else s.setTrain t { v with setpoint := x }

/-- Whether a RUNNING train stands at TP_MIN (R107, R108, R139). -/
def atTpMin (s : State) (t : TrainIx) : Bool :=
  decide ((s.train t).state = .running) && decide ((s.train t).setpoint = (paramsOf s t).tpMin)

/-- R107: an unload request. -/
def requestUnload (t : TrainIx) (s : State) : State :=
  if atTpMin s t then
    raise .trainEvent <|
      putTrain t { s.train t with state := .ready, setpoint := 0, stateTimer := (paramsOf s t).readyMax }
        (releaseStore t s)
  else s

/-- R108: whether a stop is taken. -/
def stopTaken (s : State) (t : TrainIx) : Bool :=
  decide ((s.train t).state = .ready) || (atTpMin s t && decide ((paramsOf s t).minRun ≤ (s.train t).runTime))

/-- R108: a stop request. -/
def requestStop (t : TrainIx) (s : State) : State := if stopTaken s t then enterStopping t s else s

/-! ### Forced stops (R116, R117) -/

/-- The states a forced stop acts on. -/
def TrainState.stoppable : TrainState → Bool
  | .starting | .ready | .running => true
  | .outOfService | .idle | .stopping | .cooldown | .tripped | .lockedOut => false

/-- R117: a forced stop on entry into SAFE. -/
def safeStop (t : TrainIx) (s : State) : State := if (s.train t).state.stoppable then enterStopping t s else s

/-- R116: a forced stop by an excursion. -/
def excursionStop (t : TrainIx) (s : State) : State :=
  if (s.train t).state.stoppable then stopFrom t { s.train t with excursionStopped := true } s else s

/-- R116: a side's EXCURSION_STOPPED flag is cleared. -/
def clearExcursionStopped (t : TrainIx) (s : State) : State :=
  s.setTrain t { s.train t with excursionStopped := false }

/-- An operation on each of some trains, in the order of the list: index order wherever one response handles several, but rank order at
steps 4 and 5 of the dispatcher's; both are the model's choice (R126, R140, log 22). -/
def eachTrain (f : TrainIx → State → State) (ts : List TrainIx) (s : State) : State := ts.foldl (fun s t => f t s) s

/-- R116: the sequencer's response to a change of a side's excursion state. -/
def excursionChanged (side : Side) (new : Excursion) (s : State) : State :=
  match new with
  | .active => eachTrain excursionStop side.trains s
  | .held => s
  | .clear => eachTrain clearExcursionStopped side.trains s

/-! ### Trips (R110, R111) -/

/-- R110: a counted trip, from a record whose line stands asserted. -/
def countTrip (t : TrainIx) (s : State) : State :=
  let v := s.train t
  let trips := min 255 (v.tripsToday + 1)
  basisChange <| raise .trip <|
    putTrainCovered t
      { v with
        state := if s.limits.tripsLock ≤ trips then .lockedOut else .tripped
        setpoint := 0, stateTimer := 0, warm := false, tripsToday := trips
        downSince := if v.state.stoppable then 0 else v.downSince }
      (releaseStore t s)

/-- R110: a TRIP line goes from released to asserted. -/
def tripAssert (t : TrainIx) (s : State) : State :=
  if (s.train t).tripLine then s
  else
    let s' := s.setTrain t { s.train t with tripLine := true }
    match (s.train t).state with
    | .outOfService | .lockedOut => s'
    | .idle | .starting | .ready | .running | .stopping | .cooldown | .tripped => countTrip t s'

/-! ### The second (R101) and the day boundary (R115) -/

/-- R101 step 1. -/
def countTimer (t : TrainIx) (s : State) : State :=
  let v := s.train t
  if v.stateTimer = 0 then s
  else if v.stateTimer = 1 then expire t s
  else s.setTrain t { v with stateTimer := v.stateTimer - 1 }

/-- R101: one train's second, in the rule's order: its run time and down time count by the state an expiry of step 1 leaves (log 7). -/
def trainSecond (t : TrainIx) (s : State) : State :=
  let s' := countTimer t s
  let v := s'.train t
  putTrain t
    { v with
      runTime := if v.state = .running then min 86400 (v.runTime + 1) else v.runTime
      downSince := if v.state.stoppable then v.downSince else min 86401 (v.downSince + 1) } s'

/-- R101: a cycle timer's phase advances and returns to 0 when it reaches its period. -/
def Cycle.advance (c : Cycle) : Cycle := { c with phase := if c.period ≤ c.phase + 1 then 0 else c.phase + 1 }

/-- R101: the sequencer's response to a second, the trains in index order (log 22). The HEAT outputs follow by R120. -/
def trainsSecond (s : State) : State :=
  let s' := eachTrain trainSecond TrainIx.all s
  s'.withTrains { s'.trains with timerA := s'.trains.timerA.advance, timerB := s'.trains.timerB.advance }

/-- R115: what the day boundary does to a train record. -/
def Train.newDay (v : Train) : Train := { v with startsToday := 0, tripsToday := 0, startLimited := false }

/-- R115: the sequencer's response to the day boundary. -/
def trainsNewDay (s : State) : State := s.withTrains { s.trains with train := s.trains.train.map Train.newDay }

/-! ### The plant client's requests -/

/-- R112: TRAIN_RESET. -/
def ownTrainReset (index : Byte) (s : State) : State :=
  match trainOf index with
  | none => answer Request.trainReset.code .badArgument [] s
  | some t =>
    if (s.train t).state ≠ .tripped ∨ (s.train t).tripLine = true then
      answer Request.trainReset.code .wrongState [] s
    else
      let s' := basisChange (raise .trainEvent (putTrainCovered t (cooled s t) s))
      answer Request.trainReset.code .ok (u8 (s'.train t).state.code ++ u8 (s'.train t).tripsToday) s'

/-- R113: TRAIN_UNLOCK. -/
def ownTrainUnlock (index : Byte) (s : State) : State :=
  match trainOf index with
  | none => answer Request.trainUnlock.code .badArgument [] s
  | some t =>
    if (s.train t).state ≠ .lockedOut ∨ (s.train t).tripLine = true then
      answer Request.trainUnlock.code .wrongState [] s
    else
      let s' := basisChange (raise .trainEvent (putTrainCovered t { cooled s t with tripsToday := 0 } s))
      answer Request.trainUnlock.code .ok (u8 (s'.train t).state.code ++ u8 (s'.train t).tripsToday) s'

/-- R114 step 2: the states TRAIN_SERVICE OUT is taken in. -/
def TrainState.removable : TrainState → Bool
  | .idle | .cooldown | .tripped | .lockedOut => true
  | .outOfService | .starting | .ready | .running | .stopping => false

/-- R114: TRAIN_SERVICE OUT carried out. -/
def takeOut (t : TrainIx) (s : State) : State :=
  basisChange <| putTrainCovered t
    { s.train t with state := .outOfService, stateTimer := 0, downSince := 86401, warm := false } s

/-- R114: TRAIN_SERVICE RETURN carried out. -/
def takeBack (t : TrainIx) (s : State) : State :=
  basisChange (raise .trainEvent (putTrainCovered t (cooled s t) s))

/-- R114: TRAIN_SERVICE. -/
def ownTrainService (index direction : Byte) (s : State) : State :=
  match trainOf index, returnOf direction with
  | some t, some false =>
    if (s.train t).state.removable then
      let s' := takeOut t s
      answer Request.trainService.code .ok (u8 (s'.train t).state.code) s'
    else answer Request.trainService.code .wrongState [] s
  | some t, some true =>
    if (s.train t).state ≠ .outOfService ∨ (s.train t).tripLine = true then
      answer Request.trainService.code .wrongState [] s
    else
      let s' := takeBack t s
      answer Request.trainService.code .ok (u8 (s'.train t).state.code) s'
  | _, _ => answer Request.trainService.code .badArgument [] s

/-- R123: each listed train takes the rank of its place in the list. -/
def rankTrains (ts : List TrainIx) (s : State) : State :=
  eachTrain (fun t s => s.setTrain t { s.train t with rank := ts.idxOf t + 1 }) ts s

/-- R123: TRAIN_PRIORITY. The reply lists the side's ranks in train index order (log 5). -/
def ownTrainPriority (side : Byte) (order : List Byte) (s : State) : State :=
  match (sideOfByte side).bind fun d => (priorityOf d order).map fun ts => (d, ts) with
  | none => answer Request.trainPriority.code .badArgument [] s
  | some (d, ts) =>
    let s' := rankTrains ts s
    answer Request.trainPriority.code .ok (d.trains.flatMap fun t => u8 (s'.train t).rank) s'

/-- R121: an assignment that differs from the present one. -/
def assignHeater (t : TrainIx) (h : Heater) (s : State) : State :=
  if (s.train t).heater = h then s
  else putTrain t { s.train t with heater := h, warm := (s.train t).warm && decide (h ≠ .off) } s

/-- R121: HEATER_ASSIGN. -/
def ownHeaterAssign (index heater : Byte) (s : State) : State :=
  match trainOf index, heaterOf heater with
  | some t, some h =>
    if t.side = .discharge then
      let s' := assignHeater t h s
      let v := s'.train t
      answer Request.heaterAssign.code .ok (u8 v.heater.code ++ flag v.warm ++ u8 v.startClass.code) s'
    else answer Request.heaterAssign.code .badArgument [] s
  | _, _ => answer Request.heaterAssign.code .badArgument [] s

def State.setCycle (s : State) (k : CycleTimer) (c : Cycle) : State :=
  match k with
  | .a => s.withTrains { s.trains with timerA := c }
  | .b => s.withTrains { s.trains with timerB := c }

def State.cycle (s : State) : CycleTimer → Cycle
  | .a => s.trains.timerA
  | .b => s.trains.timerB

/-- R122: HEATER_TIMER. -/
def ownHeaterTimer (timer : Byte) (period onTime : Half) (s : State) : State :=
  match cycleTimerOf timer with
  | none => answer Request.heaterTimer.code .badArgument [] s
  | some k =>
    if 10 ≤ period.toNat ∧ period.toNat ≤ 3600 ∧ 1 ≤ onTime.toNat ∧ onTime.toNat ≤ period.toNat then
      let c : Cycle := ⟨period.toNat, onTime.toNat, 0⟩
      answer Request.heaterTimer.code .ok (cycleBytes c) (s.setCycle k c)
    else answer Request.heaterTimer.code .badArgument [] s

/-- R124: READ_TRAIN. -/
def ownReadTrain (index : Byte) (s : State) : State :=
  match trainOf index with
  | none => answer Request.readTrain.code .badArgument [] s
  | some t => answer Request.readTrain.code .ok (trainBytes s t) s

/-! ### Meanings -/

/-- STARTING_EXPIRY (R101, R103): the last count of a STARTING train's timer; without it the event has no cause and changes
nothing (log 8). -/
def execStartingExpiry (t : TrainIx) (s : State) : Host.Outcome State Fault Refusal :=
  .next (unlessHeld (fun s =>
    if (s.train t).state = .starting ∧ (s.train t).stateTimer = 1 then enterReady t s else s) s)

/-- READY_MAX_EXPIRY (R101, R104, R108): the last count of a READY train's timer (log 8). -/
def execReadyMaxExpiry (t : TrainIx) (s : State) : Host.Outcome State Fault Refusal :=
  .next (unlessHeld (fun s =>
    if (s.train t).state = .ready ∧ (s.train t).stateTimer = 1 then enterStopping t s else s) s)

/-- STOP_TIME_EXPIRY (R101, R109): the last count of a STOPPING train's timer (log 8). -/
def execStopTimeExpiry (t : TrainIx) (s : State) : Host.Outcome State Fault Refusal :=
  .next (unlessHeld (fun s =>
    if (s.train t).state = .stopping ∧ (s.train t).stateTimer = 1 then enterCooldown t s else s) s)

/-- MIN_DOWN_EXPIRY (R101, R109): the last count of a COOLDOWN train's timer (log 8). -/
def execMinDownExpiry (t : TrainIx) (s : State) : Host.Outcome State Fault Refusal :=
  .next (unlessHeld (fun s =>
    if (s.train t).state = .cooldown ∧ (s.train t).stateTimer = 1 then enterIdle t s else s) s)

/-- Whether the next count of down_since takes a HOT train past HOT_WINDOW (R119). -/
def hotWindowEnds (s : State) (t : TrainIx) : Bool :=
  let v := s.train t
  !v.state.permitted && decide (v.startClass = .hot) && decide (s.limits.hotWindow ≤ v.downSince)

/-- HOT_WINDOW_EXPIRY (R101, R119): the count of down_since that passes HOT_WINDOW (log 8). -/
def execHotWindowExpiry (t : TrainIx) (s : State) : Host.Outcome State Fault Refusal :=
  .next (unlessHeld (fun s =>
    if hotWindowEnds s t then putTrain t { s.train t with downSince := min 86401 ((s.train t).downSince + 1) } s
    else s) s)

/-- HEATER_CYCLE_WRAP (R101): the count of a phase that reaches its period (log 8). -/
def execHeaterCycleWrap (k : CycleTimer) (s : State) : Host.Outcome State Fault Refusal :=
  .next (unlessHeld (fun s =>
    if (s.cycle k).phase + 1 = (s.cycle k).period then s.setCycle k { s.cycle k with phase := 0 } else s) s)

/-- TRIP_ASSERTION (R110). An assertion of a line that stands asserted is no change of it. -/
def execTripAssertion (t : TrainIx) (s : State) : Host.Outcome State Fault Refusal :=
  .next (unlessHeld (tripAssert t) s)

/-- TRIP_RELEASE (R111). -/
def execTripRelease (t : TrainIx) (s : State) : Host.Outcome State Fault Refusal :=
  .next (unlessHeld (fun s => s.setTrain t { s.train t with tripLine := false }) s)

/-- TRAIN_SERVICE (R114). -/
def execTrainService (h : Head) (index direction : Byte) (s : State) : Host.Outcome State Fault Refusal :=
  .next (takeRequest .trainService h (ownTrainService index direction) s)

/-- TRAIN_RESET (R112). -/
def execTrainReset (h : Head) (index : Byte) (s : State) : Host.Outcome State Fault Refusal :=
  .next (takeRequest .trainReset h (ownTrainReset index) s)

/-- TRAIN_UNLOCK (R113). -/
def execTrainUnlock (h : Head) (index : Byte) (s : State) : Host.Outcome State Fault Refusal :=
  .next (takeRequest .trainUnlock h (ownTrainUnlock index) s)

/-- TRAIN_PRIORITY (R123). -/
def execTrainPriority (h : Head) (side : Byte) (order : List Byte) (s : State) : Host.Outcome State Fault Refusal :=
  .next (takeRequest .trainPriority h (ownTrainPriority side order) s)

/-- HEATER_ASSIGN (R121). -/
def execHeaterAssign (h : Head) (index heater : Byte) (s : State) : Host.Outcome State Fault Refusal :=
  .next (takeRequest .heaterAssign h (ownHeaterAssign index heater) s)

/-- HEATER_TIMER (R122). -/
def execHeaterTimer (h : Head) (timer : Byte) (period onTime : Half) (s : State) : Host.Outcome State Fault Refusal :=
  .next (takeRequest .heaterTimer h (ownHeaterTimer timer period onTime) s)

/-- READ_TRAIN (R124). -/
def execReadTrain (h : Head) (index : Byte) (s : State) : Host.Outcome State Fault Refusal :=
  .next (takeRequest .readTrain h (ownReadTrain index) s)

end Sys2Proof.Machine
end

