-- ==== Sys2Proof/Machine/Orders.lean ====
section
/-! DEFINITION. The order receiver (spec 07): the telegram assembler, matching, the activation records, their windows, metering and
closing, and the meanings of the order commands. -/

namespace Sys2Proof.Machine

/-! ### Release (R153) -/

/-- R153: an ACTIVE record is released with a reason, raising ORDER unless the reason is RESTART; a CONFIRMING record is
abandoned; an IDLE record is left. -/
def releaseAct (d : Dir) (why : ReleaseReason) (s : State) : State :=
  let a := s.act d
  match a.state with
  | .idle => s
  | .confirming => s.setAct d { a with state := .idle, confirmLeft := 0 }
  | .active =>
    let s' := s.setAct d { a with state := .idle, holdLeft := 0, lastRelease := why }
    if why = .restart then s' else raise .order s'

/-- Both records are released (R156, R159, R163). -/
def releaseBoth (why : ReleaseReason) (s : State) : State := releaseAct .down why (releaseAct .up why s)

/-! ### Matching (R151, R154, R155, R156) -/

/-- The pattern at an index. -/
def patternAt (s : State) (p : Fin 8) : Pattern := s.orders.patterns.get p

/-- R151: whether a telegram's codes match a pattern. -/
def Pattern.accepts (p : Pattern) (a b : Byte) : Bool :=
  a &&& p.maskA == p.codeA &&& p.maskA && b &&& p.maskB == p.codeB &&& p.maskB

/-- R151: the lowest-index pattern that is enabled and matches. -/
def matchPattern (s : State) (a b : Byte) : Option (Fin 8) :=
  ([0, 1, 2, 3, 4, 5, 6, 7] : List (Fin 8)).find? fun i => (patternAt s i).enabled && (patternAt s i).accepts a b

/-- Whether the record of a direction is ACTIVE and its pattern has the release mode. -/
def activeOn (s : State) (d : Dir) (m : ReleaseMode) : Bool :=
  decide ((s.act d).state = .active) && decide ((patternAt s (s.act d).pattern).releaseMode = m)

/-- R154 steps 1 and 2.1: an ACTIVE ON_OTHER record is released unless the telegram matched its own pattern. -/
def endOnOther (p : Option (Fin 8)) (d : Dir) (s : State) : State :=
  if activeOn s d .onOther ∧ p ≠ some (s.act d).pattern then releaseAct d .other s else s

/-- R154 step 2.2: an ACTIVE ON_PATTERN record whose partner matched is released. -/
def endOnPattern (p : Fin 8) (d : Dir) (s : State) : State :=
  if activeOn s d .onPattern ∧ (patternAt s (s.act d).pattern).partner = p then releaseAct d .pattern s else s

/-- R154 step 2.3: a CONFIRMING record on another pattern is abandoned. -/
def endConfirming (p : Fin 8) (d : Dir) (s : State) : State :=
  if (s.act d).state = .confirming ∧ (s.act d).pattern ≠ p then releaseAct d .other s else s

/-- An operation on the UP record, then on the DOWN record. -/
def eachDir (f : Dir → State → State) (s : State) : State := f .down (f .up s)

/-- hold_left as an activation by pattern q sets it (R155). -/
def holdOf (q : Pattern) : Nat := if q.releaseMode = .timed then q.hold else 0

/-- R155 step 4: the own record moves. -/
def moveOwn (d : Dir) (p : Fin 8) (level : Nat) (s : State) : State :=
  let a := s.act d
  let q := patternAt s p
  match a.state with
  | .idle =>
    if q.confirm then
      s.setAct d { a with state := .confirming, pattern := p, level := level, confirmLeft := q.confirmWindow }
    else
      raise .order (s.setAct d { a with state := .active, pattern := p, level := level, holdLeft := holdOf q })
  | .confirming =>
    raise .order
      (s.setAct d { a with state := .active, pattern := p, level := level, confirmLeft := 0, holdLeft := holdOf q })
  | .active => s.setAct d { a with pattern := p, level := level, holdLeft := holdOf q }

/-- R155: an ACTIVATE action. -/
def activate (d : Dir) (p : Fin 8) (level : Nat) (s : State) : State :=
  if level = 0 then releaseAct d .pattern s
  else if s.mode = .safe ∨ backed s d = false then raise .orderUnbacked s
  else moveOwn d p level (releaseAct d.opposite .opposite s)

/-- R155, R156: a pattern's action. -/
def carryOut (p : Fin 8) (level : Nat) (s : State) : State :=
  match (patternAt s p).action with
  | .activateUp => activate .up p level s
  | .activateDown => activate .down p level s
  | .releaseUp => releaseAct .up .pattern s
  | .releaseDown => releaseAct .down .pattern s
  | .releaseAll => releaseBoth .pattern s

/-- A telegram counter rises by 1, saturating at 65,535 (R150). -/
def countUp (n : Nat) : Nat := min 65535 (n + 1)

/-- R154: a valid telegram. -/
def takeTelegram (a b : Byte) (level : Nat) (s : State) : State :=
  let s := s.withOrders { s.orders with received := countUp s.orders.received }
  match matchPattern s a b with
  | none => eachDir (endOnOther none) (s.withOrders { s.orders with unmatched := countUp s.orders.unmatched })
  | some p =>
    carryOut p level (eachDir (endConfirming p) (eachDir (endOnPattern p) (eachDir (endOnOther (some p)) s)))

/-! ### The assembler (R149, R150, R199) -/

def State.setAssembler (s : State) (v : Assembler) : State := s.withOrders { s.orders with assembler := v }

/-- R149, R150: a telegram is discarded and the assembler hunts. -/
def discardTelegram (s : State) : State :=
  s.withOrders { s.orders with assembler := .hunting, discarded := countUp s.orders.discarded }

/-- R149: the fifth byte is held: the CHECK is made, and a valid telegram is handed on with its LEVEL taken as at most 100. -/
def checkTelegram (a b level check : Byte) (s : State) : State :=
  if check = a ^^^ b ^^^ level then takeTelegram a b (min 100 level.toNat) (s.setAssembler .hunting)
  else discardTelegram s

/-- R149: one byte from ORDER_RX. -/
def takeOrderByte (value : Byte) (framingError : Bool) (s : State) : State :=
  match s.orders.assembler with
  | .hunting => if value = 0xC3#8 ∧ framingError = false then s.setAssembler (.collecting [value]) else s
  | .collecting held =>
    if framingError then discardTelegram s
    else
      match held with
      | [_, a, b, level] => checkTelegram a b level value s
      | _ => s.setAssembler (.collecting (held ++ [value]))

/-! ### Seconds (R158) and metering (R161) -/

/-- R158: one record's second. -/
def actSecond (d : Dir) (s : State) : State :=
  let a := s.act d
  match a.state with
  | .idle => s
  | .confirming =>
    if a.confirmLeft ≤ 1 then releaseAct d .timed s else s.setAct d { a with confirmLeft := a.confirmLeft - 1 }
  | .active =>
    if (patternAt s a.pattern).releaseMode = .timed then
      if a.holdLeft ≤ 1 then releaseAct d .timed s else s.setAct d { a with holdLeft := a.holdLeft - 1 }
    else s

/-- R158: the receiver's response to a second. -/
def ordersSecond (s : State) : State := eachDir actSecond s

/-- R161: the served power of a second: delivered beyond schedule in the record's direction, within 0..requested_kw. -/
def servedPower (s : State) (d : Dir) (delivered : Int) : Nat :=
  match d with
  | .up => clampInt 0 (requestedKw s d) (delivered - s.dispatch.tSched)
  | .down => clampInt 0 (requestedKw s d) (s.dispatch.tSched - delivered)

/-- R161: the dispatcher's hand-over of a second is metered into the ACTIVE record of act_dir. -/
def meterActivation (delivered : Int) (s : State) : State :=
  match s.dispatch.actDir with
  | none => s
  | some d =>
    let a := s.act d
    if a.state = .active then
      s.setAct d
        { a with
          servedKj := a.servedKj + servedPower s d delivered, requestedKj := a.requestedKj + requestedKw s d }
    else s

/-! ### The boundary (R160, R162) -/

/-- R162: whether closing figures are short. -/
def ActClosing.isShort (c : ActClosing) (tol : Nat) : Bool :=
  decide (c.servedKj * 1000 < c.requestedKj * (1000 - tol))

/-- R162: a record closes interval n, unless closing holds n already. -/
def closeAct (n : Nat) (d : Dir) (s : State) : State :=
  let a := s.act d
  if a.closing.interval = n then s
  else
    let c : ActClosing := ⟨n, a.servedKj, a.requestedKj⟩
    let s' := s.setAct d { a with closing := c, servedKj := 0, requestedKj := 0 }
    if c.isShort s.limits.curtailTol then raise .orderShort s' else s'

/-- R160: whether the table holds a reserve entry of the direction that covers the interval and is not closed. -/
def stillBacked (s : State) (d : Dir) (n : Nat) : Bool :=
  s.table.entries.any fun e => decide (e.kind = reserveKind d) && e.covers n && !e.status.isClosed

/-- R160: the backing check of a record at the boundary into interval n. -/
def checkBacking (n : Nat) (d : Dir) (s : State) : State :=
  if (s.act d).state = .active ∧ stillBacked s d n = false then releaseAct d .backingEnded s else s

/-- R160, R162: the receiver's response to the boundary that ends `ended` and begins `begun`. -/
def ordersBoundary (ended begun : Nat) (s : State) : State :=
  eachDir (closeAct ended) (eachDir (checkBacking begun) s)

/-- R162: the shares of the served energy among the named entries (id, held, seq): floors by held power, and the remainder to
the entry with the lowest seq. -/
def energyShares (total : Nat) (named : List Entry) : List (Nat × Nat) :=
  let held := (named.map (·.power)).sum
  let floors := named.map fun e => (e.id, total * e.power / held)
  let rest := total - (floors.map (·.2)).sum
  let least := (named.map (·.seq)).foldl min ((named.map (·.seq)).headD 0)
  (named.zip floors).map fun (e, f) => (f.1, if e.seq = least then f.2 + rest else f.2)

/-! ### CLOCK_SET and RESTART -/

/-- R130, R162: CLOCK_SET sets the interval number held in each record's closing. -/
def setActClosing (n : Nat) (d : Dir) (s : State) : State :=
  s.setAct d { s.act d with closing := { (s.act d).closing with interval := n } }

/-- R194: RESTART at the receiver. -/
def restartOrders (s : State) : State :=
  let s' := releaseBoth .restart s
  s'.withOrders { s'.orders with assembler := .hunting, received := 0, unmatched := 0, discarded := 0 }

/-! ### Requests -/

/-- R152: whether a record is CONFIRMING or ACTIVE with a pattern. -/
def patternInUse (s : State) (p : Fin 8) : Bool :=
  [Dir.up, Dir.down].any fun d => decide ((s.act d).state ≠ .idle) && decide ((s.act d).pattern = p)

/-- R152: PATTERN_WRITE. -/
def ownPatternWrite (a : PatternArgs) (s : State) : State :=
  match patternArgsOf a with
  | none => answer Request.patternWrite.code .badArgument [] s
  | some (i, p) =>
    if patternInUse s i then answer Request.patternWrite.code .wrongState [] s
    else
      answer Request.patternWrite.code .ok (patternBytes p)
        (s.withOrders { s.orders with patterns := s.orders.patterns.set i p })

/-- R152: PATTERN_READ. -/
def ownPatternRead (index : Byte) (s : State) : State :=
  match patternOf index with
  | none => answer Request.patternRead.code .badArgument [] s
  | some i => answer Request.patternRead.code .ok (patternBytes (patternAt s i)) s

/-- R163: ORDER_RELEASE. -/
def ownOrderRelease (direction : Byte) (s : State) : State :=
  match orderDirsOf direction with
  | none => answer Request.orderRelease.code .badArgument [] s
  | some ds =>
    let s' := ds.foldl (fun s d => releaseAct d .request s) s
    answer Request.orderRelease.code .ok (orderReleaseBytes s') s'

/-! ### Meanings -/

/-- CONFIRM_WINDOW_EXPIRY (R158): the last count of a CONFIRMING record's window; without it the event has no cause and changes
nothing (log 8). -/
def execConfirmWindowExpiry (d : Dir) (s : State) : Host.Outcome State Fault Refusal :=
  .next (unlessHeld (fun s =>
    if (s.act d).state = .confirming ∧ (s.act d).confirmLeft = 1 then releaseAct d .timed s else s) s)

/-- HOLD_EXPIRY (R158): the last count of an ACTIVE TIMED record's hold (log 8). -/
def execHoldExpiry (d : Dir) (s : State) : Host.Outcome State Fault Refusal :=
  .next (unlessHeld (fun s =>
    if activeOn s d .timed ∧ (s.act d).holdLeft = 1 then releaseAct d .timed s else s) s)

/-- ORDER_BYTE (R149). -/
def execOrderByte (value : Byte) (framingError : Bool) (s : State) : Host.Outcome State Fault Refusal :=
  .next (unlessHeld (takeOrderByte value framingError) s)

/-- TELEGRAM_GAP_TIMEOUT (R149): in COLLECTING the telegram is discarded; in HUNTING no gap runs. -/
def execTelegramGapTimeout (s : State) : Host.Outcome State Fault Refusal :=
  .next (unlessHeld (fun s =>
    match s.orders.assembler with
    | .hunting => s
    | .collecting _ => discardTelegram s) s)

/-- PATTERN_WRITE (R152). -/
def execPatternWrite (h : Head) (a : PatternArgs) (s : State) : Host.Outcome State Fault Refusal :=
  .next (takeRequest .patternWrite h (ownPatternWrite a) s)

/-- PATTERN_READ (R152). -/
def execPatternRead (h : Head) (index : Byte) (s : State) : Host.Outcome State Fault Refusal :=
  .next (takeRequest .patternRead h (ownPatternRead index) s)

/-- ORDER_STATE (R164). -/
def execOrderState (h : Head) (s : State) : Host.Outcome State Fault Refusal :=
  .next (takeRequest .orderState h (fun s => answer Request.orderState.code .ok (orderStateBytes s) s) s)

/-- ORDER_RELEASE (R163). -/
def execOrderRelease (h : Head) (direction : Byte) (s : State) : Host.Outcome State Fault Refusal :=
  .next (takeRequest .orderRelease h (ownOrderRelease direction) s)

end Sys2Proof.Machine
end

