-- ==== Sys2Proof/Machine/Modes.lean ====
section
/-! DEFINITION. The mode and supervision block (spec 08): changes of mode, supervision failures, the limits record, and the
meanings of its commands. -/

namespace Sys2Proof.Machine

/-! ### Changes of mode (R168) -/

/-- R168: what entry into SAFE does at the sequencer (R117), the receiver (R159) and the port (R191). -/
def enteredSafe (s : State) : State :=
  let s' := releaseBoth .safe (eachTrain safeStop TrainIx.all s)
  s'.withPort { s'.port with mask := safeMask }

/-- R168: a change of mode: MODE is raised, the neighbours act on entry into SAFE, and the timer is reloaded on entry into
NORMAL or HOLD and stops where it stands on entry into SAFE. -/
def changeMode (m : Mode) (s : State) : State :=
  let s' := raise .mode (s.withMode m)
  match m with
  | .safe => enteredSafe s'
  | .normal | .hold => reloadTimer s'
  | .commissioning => s'

/-! ### Supervision (R176, R178) -/

/-- R178 step 1. -/
def countFailure (s : State) : State :=
  s.withSupervision { s.supervision with failures := min 255 (s.supervision.failures + 1) }

/-- R178: a supervision failure. -/
def supervisionFailure (s : State) : State :=
  let s' := countFailure s
  match s.mode, s.supervision.escalation with
  | .normal, .second => changeMode .hold s'
  | .normal, .first | .hold, _ => changeMode .safe s'
  | .commissioning, _ | .safe, _ => s'

/-- R176: whether the timer counts. -/
def timerRuns (s : State) : Bool :=
  decide (0 < s.supervision.timeout) && (decide (s.mode = .normal) || decide (s.mode = .hold))

/-- R176: the timer falls by 1 s and, reaching 0 s, expires. -/
def countSupervision (s : State) : State :=
  let s' := s.withSupervision { s.supervision with remaining := s.supervision.remaining - 1 }
  if s.supervision.remaining ≤ 1 then supervisionFailure s' else s'

/-- R176: the block's response to a second. -/
def supervisionSecond (s : State) : State := if timerRuns s then countSupervision s else s

/-- R170, R174: failures becomes 0. -/
def clearFailures (s : State) : State := s.withSupervision { s.supervision with failures := 0 }

/-- R175, R194: RESTART at the block. -/
def restartSupervision (s : State) : State := reloadTimer (clearFailures s)

/-! ### Requests on the mode -/

/-- The reply with the mode and failures (R169, R170, R179). -/
def answerMode (r : Request) (s : State) : State := answer r.code .ok (modeBytes s) s

/-- R169: ENTER_HOLD. -/
def ownEnterHold (s : State) : State :=
  match s.mode with
  | .normal => answerMode .enterHold (changeMode .hold s)
  | .hold => answerMode .enterHold s
  | .commissioning | .safe => answer Request.enterHold.code .modeRefused [] s

/-- R169: ENTER_SAFE. -/
def ownEnterSafe (s : State) : State :=
  match s.mode with
  | .normal | .hold => answerMode .enterSafe (changeMode .safe s)
  | .safe => answerMode .enterSafe s
  | .commissioning => answer Request.enterSafe.code .modeRefused [] s

/-- R170: RESUME. -/
def ownResume (s : State) : State :=
  if s.mode = .hold then answerMode .resume (clearFailures (changeMode .normal s))
  else answer Request.resume.code .modeRefused [] s

/-- R170: RECOVER. -/
def ownRecover (s : State) : State :=
  if s.mode ≠ .safe then answer Request.recover.code .modeRefused [] s
  else if !atRest s then answer Request.recover.code .wrongState [] s
  else if s.account.stale then answer Request.recover.code .unavailable [] s
  else answerMode .recover (clearFailures (changeMode .normal s))

/-- R179: FORCE_EXPIRY. -/
def ownForceExpiry (s : State) : State :=
  if s.mode = .commissioning ∨ s.mode = .safe then answer Request.forceExpiry.code .modeRefused [] s
  else if s.supervision.timeout = 0 then answer Request.forceExpiry.code .wrongState [] s
  else answerMode .forceExpiry (supervisionFailure s)

/-- R177: whether a KEEPALIVE is early. -/
def keepaliveEarly (s : State) : Bool :=
  s.supervision.window && timerRuns s && decide (s.supervision.timeout < 2 * s.supervision.remaining)

/-- R177: KEEPALIVE. -/
def ownKeepalive (s : State) : State :=
  let early := keepaliveEarly s
  let s' := if early then supervisionFailure s else reloadTimer s
  answer Request.keepalive.code .ok (modeBytes s' ++ u8 s'.supervision.remaining ++ flag early) s'

/-- R180: SUPERVISION_SET. -/
def ownSupervisionSet (a : SupervisionArgs) (s : State) : State :=
  match flagOf a.window, flagOf a.anyRequest, flagOf a.reading, escalationOf a.escalation with
  | some window, some anyRequest, some reading, some escalation =>
    if a.timeout = 0#8 ∧ s.mode ≠ .commissioning then answer Request.supervisionSet.code .modeRefused [] s
    else
      let v := { s.supervision with
        timeout := a.timeout.toNat, window, anyRequest, reading, escalation, remaining := a.timeout.toNat }
      answer Request.supervisionSet.code .ok (supervisionBytes v) (s.withSupervision v)
  | _, _, _, _ => answer Request.supervisionSet.code .badArgument [] s

/-! ### Requests on the limits record -/

/-- R42: a written CAP_HS reaches its store within the request: content above the new capacity is cut to it, and the pooled
figures are recomputed. -/
def capacityWritten (i : StoreIx) (s : State) : State :=
  recomputePools
    (s.setStore i { s.store i with contentKj := min (s.store i).contentKj (capacityKj s i) })

/-- R172: a parameter takes a value. -/
def writeParam (p : Param) (v : Nat) (s : State) : State :=
  let s' := s.withLimits (s.limits.set p v)
  match p with
  | .capHs i => capacityWritten i s'
  | _ => s'

/-- R172: PARAM_WRITE. -/
def ownParamWrite (index : Byte) (value : Word) (s : State) : State :=
  if s.locked then answer Request.paramWrite.code .locked [] s
  else
    match Param.ofIndex index.toNat with
    | none => answer Request.paramWrite.code .badArgument [] s
    | some p =>
      if p.inRange value.toNat then
        let s' := writeParam p value.toNat s
        answer Request.paramWrite.code .ok (u8 index.toNat ++ u32 (s'.limits.get p)) s'
      else answer Request.paramWrite.code .badArgument [] s

/-- R173: PARAM_READ. -/
def ownParamRead (index : Byte) (s : State) : State :=
  match Param.ofIndex index.toNat with
  | none => answer Request.paramRead.code .badArgument [] s
  | some p =>
    answer Request.paramRead.code .ok
      (u8 index.toNat ++ u32 (s.limits.get p) ++ u32 (Limits.default.get p) ++ flag s.locked) s

/-- R174: LOCK_LIMITS. -/
def ownLockLimits (s : State) : State :=
  if s.mode ≠ .commissioning then answer Request.lockLimits.code .locked [] s
  else if s.account.basis = .unbased then answer Request.lockLimits.code .wrongState [] s
  else if s.clock.running = false then answer Request.lockLimits.code .wrongState [] s
  else
    match failedCheck s.limits with
    | some p => answer Request.lockLimits.code .badArgument (u8 p.index) s
    | none =>
      let s' := clearFailures (changeMode .normal (s.withLocked true))
      answer Request.lockLimits.code .ok (u8 (modeCode s'.mode) ++ flag s'.locked) s'

/-! ### Meanings -/

/-- SUPERVISION_EXPIRY (R176): the last count of the supervision timer; without it the event has no cause and changes nothing
(log 8). -/
def execSupervisionExpiry (s : State) : Host.Outcome State Fault Refusal :=
  .next (unlessHeld (fun s => if timerRuns s ∧ s.supervision.remaining = 1 then countSupervision s else s) s)

/-- PARAM_WRITE (R172). -/
def execParamWrite (h : Head) (index : Byte) (value : Word) (s : State) : Host.Outcome State Fault Refusal :=
  .next (takeRequest .paramWrite h (ownParamWrite index value) s)

/-- PARAM_READ (R173). -/
def execParamRead (h : Head) (index : Byte) (s : State) : Host.Outcome State Fault Refusal :=
  .next (takeRequest .paramRead h (ownParamRead index) s)

/-- LOCK_LIMITS (R174). -/
def execLockLimits (h : Head) (s : State) : Host.Outcome State Fault Refusal :=
  .next (takeRequest .lockLimits h ownLockLimits s)

/-- SUPERVISION_SET (R180). -/
def execSupervisionSet (h : Head) (a : SupervisionArgs) (s : State) : Host.Outcome State Fault Refusal :=
  .next (takeRequest .supervisionSet h (ownSupervisionSet a) s)

/-- KEEPALIVE (R177). -/
def execKeepalive (h : Head) (s : State) : Host.Outcome State Fault Refusal :=
  .next (takeRequest .keepalive h ownKeepalive s)

/-- FORCE_EXPIRY (R179). -/
def execForceExpiry (h : Head) (s : State) : Host.Outcome State Fault Refusal :=
  .next (takeRequest .forceExpiry h ownForceExpiry s)

/-- RESUME (R170). -/
def execResume (h : Head) (s : State) : Host.Outcome State Fault Refusal :=
  .next (takeRequest .resume h ownResume s)

/-- RECOVER (R170). -/
def execRecover (h : Head) (s : State) : Host.Outcome State Fault Refusal :=
  .next (takeRequest .recover h ownRecover s)

/-- ENTER_HOLD (R169). -/
def execEnterHold (h : Head) (s : State) : Host.Outcome State Fault Refusal :=
  .next (takeRequest .enterHold h ownEnterHold s)

/-- ENTER_SAFE (R169). -/
def execEnterSafe (h : Head) (s : State) : Host.Outcome State Fault Refusal :=
  .next (takeRequest .enterSafe h ownEnterSafe s)

end Sys2Proof.Machine
end

