-- ==== Sys2Proof/Machine/Account.lean ====
section
/-! DEFINITION. The cavern account (spec 01): readings, staleness, metering, basing, the interval close, rebase and excursions, and
the meanings of the account commands. -/

namespace Sys2Proof.Machine

/-! ### Mass from measured pressure (R10, R18, R19) -/

/-- The account with mass from p_meas and p_calc from that mass. -/
def Account.massFromReading (a : Account) (l : Limits) : Account :=
  let m := massFromPressure l a.pMeas a.tMeas
  { a with mass := m, pCalc := pressureFromMass l m a.tMeas }

/-- R10: basing by the first reading, handing on a basis change. -/
def baseAccount (s : State) : State :=
  match s.account.basis with
  | .based => s
  | .unbased =>
    basisChange (s.withAccount { s.account.massFromReading s.limits with eC := 0, eE := 0, basis := .based })

/-! ### Excursions (R21 to R24) -/

/-- R21: the high side on a stored pressure. -/
def highSide (l : Limits) (p : Nat) (e : Excursion) : Excursion :=
  match e with
  | .clear | .held => if l.pTripHi ≤ p then .active else e
  | .active =>
    if p + l.pHyst ≤ l.pTripHi then
      match l.excRecovery with
      | .resume => .clear
      | .holdOff => .held
    else .active

/-- R22: the low side on a stored pressure. -/
def lowSide (l : Limits) (p : Nat) (e : Excursion) : Excursion :=
  match e with
  | .clear | .held => if p ≤ l.pTripLo then .active else e
  | .active =>
    if l.pTripLo + l.pHyst ≤ p then
      match l.excRecovery with
      | .resume => .clear
      | .holdOff => .held
    else .active

/-- R23: a side's new excursion state is kept, and a change is handed to the train sequencer. -/
def setExcursion (side : Side) (e : Excursion) (s : State) : State :=
  let s' := s.withAccount <|
    match side with
    | .charge => { s.account with excHi := e }
    | .discharge => { s.account with excLo := e }
  if e = excursionOf s.account side then s' else excursionChanged side e s'

/-- R4 step 6: both sides are judged on p_meas. -/
def judgeExcursions (s : State) : State :=
  let p := s.account.pMeas
  let s' := setExcursion .charge (highSide s.limits p s.account.excHi) s
  setExcursion .discharge (lowSide s.limits p s'.account.excLo) s'

/-! ### Readings (R4 to R6) -/

/-- R4 steps 1 to 4: the clamped values are stored, the age restarts and the clamp flag is set. -/
def storeReading (r : ReadingArgs) (a : Account) : Account :=
  let p := clampInt 0 20000 r.pressure.toInt
  let t := clampInt 2500 3500 r.temperature.toInt
  let w := r.powers.map fun x => clampInt 0 200000 x.toInt
  { a with
    pMeas := p, tMeas := t, power := w, readingAge := 0, readingSeen := true, stale := false
    clamped := decide ((p : Int) ≠ r.pressure.toInt) || decide ((t : Int) ≠ r.temperature.toInt)
      || decide (w.map Int.ofNat ≠ r.powers.map BitVec.toInt) }

/-- R4, R177: POST_READING. -/
def ownPostReading (r : ReadingArgs) (s : State) : State :=
  let s' := judgeExcursions (baseAccount (s.withAccount (storeReading r s.account)))
  answer Request.postReading.code .ok (setpointBytes s') (refreshReading s')

/-! ### Seconds (R7, R11) -/

/-- R7: reading_age advances and staleness is judged. -/
def Account.age (a : Account) (l : Limits) : Account :=
  let n := min 65535 (a.readingAge + 1)
  { a with readingAge := n, stale := !a.readingSeen || decide (l.readStale ≤ n) }

/-- R11: one second of metered power is added to each side's accumulator. -/
def meterAccount (s : State) : State :=
  s.withAccount
    { s.account with
      eC := min 4294967295 (s.account.eC + sumOver (meteredPower s) Side.charge.trains)
      eE := min 4294967295 (s.account.eE + sumOver (meteredPower s) Side.discharge.trains) }

/-- R7, R11: the account's response to a second. -/
def accountSecond (s : State) : State := meterAccount (s.withAccount (s.account.age s.limits))

/-! ### The close (R16 to R18) -/

/-- R16 step 2: the charged mass of a close. -/
def chargedMass (s : State) : Nat := s.account.eC / workC s.limits s.account.pCalc

/-- R16 step 3: the discharged mass of a close. -/
def dischargedMass (s : State) : Nat := ceilDiv s.account.eE (workE s.limits s.account.pCalc)

/-- R16 step 4, R17 step 1: the new mass, saturated, and its pressure. -/
def closedMass (s : State) : Account :=
  let m := min 100000000 (s.account.mass + chargedMass s - dischargedMass s)
  { s.account with mass := m, pCalc := pressureFromMass s.limits m s.account.tMeas }

/-- R18: whether a close rebases. -/
def closeRebases (a : Account) (l : Limits) : Bool :=
  !a.stale && decide (l.rebaseTol < ((a.pMeas : Int) - a.pCalc).natAbs)

/-- R16, R17, R18: the account's response to a boundary, whose basis change is R90's. -/
def accountClose (s : State) : State :=
  match s.account.basis with
  | .unbased => s.withAccount { s.account with eC := 0, eE := 0, lastClose := ⟨0, 0, false⟩ }
  | .based =>
    let a := closedMass s
    let rebases := closeRebases a s.limits
    let b := if rebases then a.massFromReading s.limits else a
    let s' := s.withAccount
      { b with eC := 0, eE := 0, lastClose := ⟨chargedMass s, dischargedMass s, rebases⟩ }
    closeBasisChange (if rebases then raise .rebased s' else s')

/-! ### Requests -/

/-- R19: REBASE. -/
def ownRebase (s : State) : State :=
  if s.account.stale then answer Request.rebase.code .unavailable [] s
  else
    let a := { s.account.massFromReading s.limits with eC := 0, eE := 0 }
    let s' := basisChange (raise .rebased (s.withAccount a))
    answer Request.rebase.code .ok (u32 s.account.mass ++ u32 a.mass ++ u16 a.pCalc) s'

/-- R24: a named side that is HELD becomes CLEAR; one that is CLEAR stays so. -/
def clearSide (side : Side) (s : State) : State :=
  if excursionOf s.account side = .held then setExcursion side .clear s else s

/-- R24: EXCURSION_CLEAR. -/
def ownExcursionClear (side : Byte) (s : State) : State :=
  match excursionSidesOf side with
  | none => answer Request.excursionClear.code .badArgument [] s
  | some (hi, lo) =>
    if s.account.stale then answer Request.excursionClear.code .unavailable [] s
    else if (hi = true ∧ s.account.excHi = .active) ∨ (lo = true ∧ s.account.excLo = .active) then
      answer Request.excursionClear.code .wrongState [] s
    else
      let s1 := if hi then clearSide .charge s else s
      let s2 := if lo then clearSide .discharge s1 else s1
      answer Request.excursionClear.code .ok (u8 s2.account.excHi.code ++ u8 s2.account.excLo.code) s2

/-! ### Meanings -/

/-- READING_STALE (R7): the count of reading_age that reaches READ_STALE; without it the event has no cause and changes nothing
(log 8). -/
def execReadingStale (s : State) : Host.Outcome State Fault Refusal :=
  .next (unlessHeld (fun s =>
    if s.account.stale = false ∧ (s.account.age s.limits).stale = true then
    s.withAccount (s.account.age s.limits) else s) s)

/-- POST_READING (R4). -/
def execPostReading (h : Head) (r : ReadingArgs) (s : State) : Host.Outcome State Fault Refusal :=
  .next (takeRequest .postReading h (ownPostReading r) s)

/-- READ_ACCOUNT (R25). -/
def execReadAccount (h : Head) (s : State) : Host.Outcome State Fault Refusal :=
  .next (takeRequest .readAccount h (fun s => answer Request.readAccount.code .ok (accountBytes s.account) s) s)

/-- REBASE (R19). -/
def execRebase (h : Head) (s : State) : Host.Outcome State Fault Refusal :=
  .next (takeRequest .rebase h ownRebase s)

/-- EXCURSION_CLEAR (R24). -/
def execExcursionClear (h : Head) (side : Byte) (s : State) : Host.Outcome State Fault Refusal :=
  .next (takeRequest .excursionClear h (ownExcursionClear side) s)

end Sys2Proof.Machine
end

