-- ==== Sys2Proof/Machine/Stores.lean ====
section
/-! DEFINITION. The heat-store block (spec 02): heat movement, full and low stores, the taper, standing loss, and the meanings of
the store commands. -/

namespace Sys2Proof.Machine

/-! ### Moving heat (R33) -/

/-- R33: what a compressor delivers in a second. -/
def delivery (s : State) (t : TrainIx) : Nat := meteredPower s t * s.limits.hC / 1000

/-- R33: what an expander draws in a second. -/
def draw (s : State) (t : TrainIx) : Nat := ceilDiv (meteredPower s t * s.limits.hE) 1000

/-- R33: a store's deliveries and its draws of the second, each added together. -/
def deliveriesTo (s : State) (i : StoreIx) : Nat :=
  sumOver (delivery s) ((s.store i).trains.filter fun t => decide (t.side = .charge))

def drawsFrom (s : State) (i : StoreIx) : Nat :=
  sumOver (draw s) ((s.store i).trains.filter fun t => decide (t.side = .discharge))

/-- R33: a store's content after the second's heat, within 0..capacity. -/
def heatedContent (s : State) (i : StoreIx) : Nat :=
  min (capacityKj s i) ((s.store i).contentKj + deliveriesTo s i) - drawsFrom s i

/-- R33: a store's overflow of the second. -/
def overflowOf (s : State) (i : StoreIx) : Nat := (s.store i).contentKj + deliveriesTo s i - capacityKj s i

/-- R33: heat is moved for every assigned train. -/
def moveHeat (s : State) : State :=
  s.withHeat
    { s.heat with store := PerStore.ofFn fun i => { s.store i with contentKj := heatedContent s i } }

/-- R35: the deliveries of RUNNING compressors on no store, which are rejected. -/
def unassignedDeliveries (s : State) : Nat :=
  sumOver (delivery s) <| Side.charge.trains.filter fun t =>
    decide ((s.train t).state = .running) && (trainStore s t).isNone

/-! ### Full and low stores (R34, R36) -/

/-- The trains of store i are appended to store j's list. -/
def moveTrains (i j : StoreIx) (s : State) : State :=
  let moving := (s.store i).trains
  let s' := s.setStore i { s.store i with trains := [] }
  s'.setStore j { s'.store j with trains := (s'.store j).trains ++ moving }

/-- R34: the target of a full store. -/
def fullTarget (s : State) (i : StoreIx) : Option StoreIx :=
  largest (roomKj s) <| StoreIx.all.filter fun j => decide (j ≠ i) && (s.store j).takes .charge && decide (0 < roomKj s j)

/-- R34: a store is handled, with its overflow of the second; the second component is the heat rejected so far. -/
def handleFull (spill : PerStore Nat) (i : StoreIx) (sr : State × Nat) : State × Nat :=
  let s := sr.1
  if isFull s i && (s.store i).holds .charge then
    match fullTarget s i with
    | none => (s, sr.2 + spill.get i)
    | some j =>
      let taken := min (roomKj s j) (spill.get i)
      let s' := moveTrains i j s
      (s'.setStore j { s'.store j with contentKj := (s'.store j).contentKj + taken }, sr.2 + (spill.get i - taken))
  else (s, sr.2)

/-- R36: the other stores an expander may be placed on whose content is above a mark in kJ, the fullest first. -/
def drawTarget (s : State) (i : StoreIx) (mark : Nat) : Option StoreIx :=
  largest (fun j => (s.store j).contentKj) <| StoreIx.all.filter fun j =>
    decide (j ≠ i) && (s.store j).takes .discharge && decide (mark < (s.store j).contentKj)

/-- R36: the target of a store that holds expanders. -/
def lowTarget (s : State) (i : StoreIx) : Option StoreIx :=
  let mark := s.limits.lowMark * 1000
  let below := if (s.store i).contentKj < mark then drawTarget s i mark else none
  match below with
  | some j => some j
  | none => if (s.store i).contentKj = 0 then drawTarget s i 0 else none

/-- R36: a store that holds expanders is handled. -/
def handleLow (i : StoreIx) (s : State) : State :=
  if (s.store i).holds .discharge then
    match lowTarget s i with
    | none => s
    | some j => moveTrains i j s
  else s

/-- R38 step 4: a RUNNING train on no store is assigned as at loading. -/
def assignLate (t : TrainIx) (s : State) : State :=
  if (s.train t).state = .running ∧ trainStore s t = none then assignStore t s else s

/-! ### The taper (R37) and the second (R38) -/

/-- R37: S, the sum of TP_MAX of the RUNNING expanders. -/
def runningExpanderMax (s : State) : Nat :=
  sumOver (tpMax s) (Side.discharge.trains.filter fun t => decide ((s.train t).state = .running))

/-- R37: taper_cap. -/
def taperCapOf (s : State) : Nat :=
  let total := runningExpanderMax s
  if s.limits.lowMark = 0 then total
  else min total (total * s.heat.summary.pooledContent / s.limits.lowMark)

/-- R37: the taper is computed. -/
def computeTaper (s : State) : State :=
  s.setSummary
    { s.heat.summary with taperCap := taperCapOf s, taper := decide (taperCapOf s < runningExpanderMax s) }

/-- R38: the store block's response to a second, in its seven steps. -/
def storesSecond (s : State) : State :=
  let lost := unassignedDeliveries s
  let spill := PerStore.ofFn (overflowOf s)
  let full := StoreIx.all.foldl (fun sr i => handleFull spill i sr) (moveHeat s, 0)
  let low := StoreIx.all.foldl (fun s i => handleLow i s) full.1
  let pooled := recomputePools (eachTrain assignLate TrainIx.all low)
  computeTaper
    (pooled.setSummary { pooled.heat.summary with reject := decide (0 < full.2 + lost) })

/-! ### Standing loss (R39) -/

/-- R39: a content after its standing loss. -/
def afterStandingLoss (loss contentKj : Nat) : Nat :=
  let mj := contentKj / 1000
  let lost := ceilDiv (mj * loss) 100000
  if mj = 0 then contentKj else if mj ≤ lost then 0 else contentKj - lost * 1000

/-- R39: the store block's response to a boundary. -/
def storesLoss (s : State) : State :=
  s.withHeat
    { s.heat with store := PerStore.ofFn fun i =>
        { s.store i with contentKj := afterStandingLoss s.limits.loss (s.store i).contentKj } }

/-! ### Requests -/

/-- R40: STORE_SERVICE carried out. -/
def serviceStore (i : StoreIx) (isolated : Bool) (s : State) : State :=
  basisChange (recomputePools (s.setStore i { s.store i with isolated := isolated }))

/-- R40: STORE_SERVICE. -/
def ownStoreService (index direction : Byte) (s : State) : State :=
  match storeOf index, returnOf direction with
  | some i, some back =>
    if (s.store i).state ≠ (if back then .isolated else .available) then
      answer Request.storeService.code .wrongState [] s
    else
      let s' := serviceStore i (!back) s
      answer Request.storeService.code .ok (u8 (s'.store i).state.code) s'
  | _, _ => answer Request.storeService.code .badArgument [] s

/-- R41: STORE_SET. -/
def ownStoreSet (index : Byte) (content : Word) (s : State) : State :=
  match storeOf index with
  | none => answer Request.storeSet.code .badArgument [] s
  | some i =>
    if capacityMj s i < content.toNat then answer Request.storeSet.code .badArgument [] s
    else if s.mode ≠ .commissioning then answer Request.storeSet.code .modeRefused [] s
    else
      let s' := recomputePools (s.setStore i { s.store i with contentKj := content.toNat * 1000 })
      answer Request.storeSet.code .ok (u32 (s'.store i).contentMj ++ u16 (s'.store i).contentRem) s'

/-- R43: READ_STORE. -/
def ownReadStore (index : Byte) (s : State) : State :=
  match storeOf index with
  | none => answer Request.readStore.code .badArgument [] s
  | some i => answer Request.readStore.code .ok (storeBytes s i) s

/-! ### Meanings -/

/-- STORE_SERVICE (R40). -/
def execStoreService (h : Head) (index direction : Byte) (s : State) : Host.Outcome State Fault Refusal :=
  .next (takeRequest .storeService h (ownStoreService index direction) s)

/-- STORE_SET (R41). -/
def execStoreSet (h : Head) (index : Byte) (content : Word) (s : State) : Host.Outcome State Fault Refusal :=
  .next (takeRequest .storeSet h (ownStoreSet index content) s)

/-- READ_STORE (R43). -/
def execReadStore (h : Head) (index : Byte) (s : State) : Host.Outcome State Fault Refusal :=
  .next (takeRequest .readStore h (ownReadStore index) s)

end Sys2Proof.Machine
end

