-- ==== Sys2Proof/Machine/Dispatcher.lean ====
section
/-! DEFINITION. The dispatcher (spec 06, R134 to R147): its response to a second in eight steps, and its closing figures. It owns
the dispatch record and acts on trains only by requests to the sequencer. -/

namespace Sys2Proof.Machine

/-! ### Step 1: the target (R136, R137) -/

/-- R136: the scheduled net power of the ACTIVE energy entries. -/
def scheduledNet (s : State) : Int := (activeSum s .energyDischarge : Int) - activeSum s .energyCharge

/-- R136: the direction of the ACTIVE activation record. R155 leaves at most one ACTIVE. -/
def activeDir (s : State) : Option Dir :=
  if s.orders.up.state = .active then some .up else if s.orders.down.state = .active then some .down else none

/-- R136: the target before limits. An activation can bring the plant to rest but cannot turn it round. -/
def targetBefore (tSched : Int) (dir : Option Dir) (kw : Nat) : Int :=
  match dir with
  | none => tSched
  | some .up => upNet tSched kw
  | some .down => downNet tSched kw

/-- R137: a target, and the last live limit that changed it. -/
abbrev Limited := Int × LiveLimit

/-- R137 step 1. -/
def limitPMax (s : State) (x : Limited) : Limited :=
  if s.limits.pMax ≤ s.account.pMeas ∧ x.1 < 0 then (0, .pMax) else x

/-- R137 step 2. -/
def limitPMin (s : State) (x : Limited) : Limited :=
  if s.account.pMeas ≤ s.limits.pMin ∧ 0 < x.1 then (0, .pMin) else x

/-- R137 step 3. -/
def limitTaper (s : State) (x : Limited) : Limited :=
  if s.heat.summary.taper = true ∧ (s.heat.summary.taperCap : Int) < x.1 then (s.heat.summary.taperCap, .taper) else x

/-- R137 step 4. -/
def limitSafe (s : State) (x : Limited) : Limited := if s.mode = .safe ∧ x.1 ≠ 0 then (0, .safe) else x

/-- R137: the live limits in their order. -/
def liveLimits (s : State) (target : Int) : Limited :=
  limitSafe s (limitTaper s (limitPMin s (limitPMax s (target, .none))))

/-- R136, R137: the dispatcher forms its target. -/
def formTarget (s : State) : State :=
  let dir := activeDir s
  let kw := match dir with
    | none => 0
    | some d => requestedKw s d
  let x := liveLimits s (targetBefore (scheduledNet s) dir kw)
  s.withDispatch
    { s.dispatch with
      tSched := scheduledNet s, actDir := dir, actKw := kw, target := x.1, limit := x.2, dir := sideOf x.1 }

/-! ### Step 2: the commit set (R138) -/

/-- R138, R141: the shortest run, in rank order, of the side's available trains that carries kw. -/
def leadingTrains (s : State) (side : Side) (kw : Nat) : List TrainIx :=
  shortestRun (tpMax s) kw (byRank (fun t => (s.train t).rank) (side.trains.filter (availableNow s)))

/-- R138, R141: the trains for a signed net power; none at 0 kW. -/
def trainsFor (s : State) (net : Int) : List TrainIx :=
  match sideOf net with
  | none => []
  | some side => leadingTrains s side net.natAbs

/-- R138: the commit set is formed afresh. -/
def formCommit (s : State) : State :=
  s.withDispatch { s.dispatch with commit := trainsFor s s.dispatch.target }

/-! ### Step 3: release (R139) -/

def setHold (t : TrainIx) (v : Bool) (s : State) : State :=
  s.withDispatch { s.dispatch with hold := s.dispatch.hold.set t v }

/-- R139: a RUNNING train at TP_MIN is stopped, or else unloaded and held. -/
def stopOrUnload (t : TrainIx) (s : State) : State :=
  let s1 := requestStop t s
  if (s1.train t).state ≠ .running then s1
  else
    let s2 := requestUnload t s1
    if (s2.train t).state = .ready then setHold t true s2 else s2

/-- R139: what step 3 does with a train. -/
def releaseTrain (t : TrainIx) (s : State) : State :=
  let d := s.dispatch
  match (s.train t).state with
  | .running => if d.commit.contains t || !atTpMin s t then s else stopOrUnload t s
  | .ready => if d.commit.contains t || d.need.contains t || d.hold.get t then s else requestStop t s
  | .outOfService | .idle | .starting | .stopping | .cooldown | .tripped | .lockedOut => s

/-- R139: hold becomes no for every train that is not READY (log 9). -/
def clearHolds (s : State) : State :=
  s.withDispatch
    { s.dispatch with hold := PerTrain.ofFn fun t => s.dispatch.hold.get t && decide ((s.train t).state = .ready) }

/-- R139: step 3. -/
def releaseUnwanted (s : State) : State := clearHolds (eachTrain releaseTrain TrainIx.all s)

/-! ### Step 4: start and load (R140) -/

/-- R140: what step 4 does with a commit member. The members are taken in rank order, which is the model's choice (log 22). -/
def startOrLoad (t : TrainIx) (s : State) : State :=
  match (s.train t).state with
  | .idle => if s.mode = .normal then requestStart t s else s
  | .ready => if sideAtZero s t.side.other then requestLoad t s else s
  | .outOfService | .starting | .running | .stopping | .cooldown | .tripped | .lockedOut => s

/-! ### Step 5: the look-ahead (R141) -/

/-- R141: the rows the look-ahead reads: positions 1 to 4, whose interval is one of the four after the current one. -/
def rowsAhead (s : State) : List Row :=
  ((s.proj.rows.drop 1).take 4).filter fun r => decide (s.clock.n < r.interval) && decide (r.interval ≤ s.clock.n + 4)

/-- R141: the seconds left until a row begins, signed. -/
def secondsLeft (s : State) (r : Row) : Int :=
  ((s.limits.lInt : Int) - s.clock.s) + ((r.interval : Int) - s.clock.n - 1) * s.limits.lInt

/-- R141: whether a train's start for its present class takes at least the seconds left. -/
def startDue (s : State) (left : Int) (t : TrainIx) : Bool :=
  decide (left ≤ (startTime (paramsOf s t) (s.train t).startClass : Int))

/-- R141: a train the row needs is started if it is IDLE and due. -/
def startAhead (left : Int) (t : TrainIx) (s : State) : State :=
  if (s.train t).state = .idle ∧ startDue s left t = true then requestStart t s else s

/-- R141: one row of the look-ahead, its trains in rank order (log 22); the second component gathers the trains needed. -/
def aheadOfRow (x : State × List TrainIx) (r : Row) : State × List TrainIx :=
  let ts := trainsFor x.1 r.netKw
  (eachTrain (startAhead (secondsLeft x.1 r)) ts x.1, x.2 ++ ts)

/-- R141: step 5. -/
def lookAhead (s : State) : State :=
  if s.mode = .normal then
    let x := (rowsAhead s).foldl aheadOfRow (s, [])
    x.1.withDispatch { x.1.dispatch with need := TrainIx.all.filter x.2.contains }
  else s.withDispatch { s.dispatch with need := [] }

/-! ### Step 6: shares (R142) -/

/-- R142: a member's quotient; total is the sum of the members' TP_MAX. -/
def quotient (s : State) (total : Nat) (t : TrainIx) : Nat := s.dispatch.target.natAbs * tpMax s t / total

/-- R142: a member's share: the remainder goes to the first, which has the lowest rank number. -/
def shareOf (s : State) (members : List TrainIx) (t : TrainIx) : Nat :=
  let q := quotient s (sumOver (tpMax s) members)
  let rest := s.dispatch.target.natAbs - sumOver q members
  clampNat (paramsOf s t).tpMin (paramsOf s t).tpMax (if members.head? = some t then q t + rest else q t)

/-- R142: step 6, over the members RUNNING when step 2 formed the set, in rank order. -/
def computeShares (members : List TrainIx) (s : State) : State :=
  s.withDispatch
    { s.dispatch with share := PerTrain.ofFn fun t => if members.contains t then shareOf s members t else 0 }

/-! ### Step 7: ramps (R143) -/

/-- R143: a setpoint moved toward a goal by at most ramp. -/
def rampToward (ramp goal v : Nat) : Nat := if v ≤ goal then min goal (v + ramp) else max goal (v - ramp)

/-- R143: the goal of a RUNNING train. -/
def rampGoal (s : State) (t : TrainIx) : Nat :=
  if s.dispatch.commit.contains t then s.dispatch.share.get t else (paramsOf s t).tpMin

/-- R143: what step 7 does with a train. -/
def rampTrain (t : TrainIx) (s : State) : State :=
  if (s.train t).state = .running then
    requestSetpoint t (rampToward (paramsOf s t).ramp (rampGoal s t) (s.train t).setpoint) s
  else s

/-! ### Step 8: metering (R145) -/

/-- R145: the delivered net power of a second. -/
def deliveredNet (s : State) : Int :=
  (sumOver (meteredPower s) Side.discharge.trains : Int) - sumOver (meteredPower s) Side.charge.trains

/-- R145: step 8, with the hand-over to the order receiver (R161). That the receiver takes the hand-over within the dispatcher's own
response, so that no release falls between the dispatcher's reading of the record and it, is the model's choice (log 27). -/
def meterSecond (s : State) : State :=
  meterActivation (deliveredNet s)
    (s.withDispatch
      { s.dispatch with
        schedKj := s.dispatch.schedKj + s.dispatch.tSched, delKj := s.dispatch.delKj + deliveredNet s })

/-- The commit members that are RUNNING (R142). -/
def runningMembers (s : State) : List TrainIx :=
  s.dispatch.commit.filter fun t => decide ((s.train t).state = .running)

/-- R135: the dispatcher's response to a second, in its eight steps. The spec orders the steps, and not the trains within one: steps 3 and
7 take them in index order and step 4 in rank order, which is the model's choice (log 22) and shows in the order of two trains loaded in
one response on a store's list (R31) and in which ramp is judged first (R143). -/
def dispatchSecond (s : State) : State :=
  let formed := formCommit (formTarget s)
  let released := releaseUnwanted formed
  let loaded := eachTrain startOrLoad released.dispatch.commit released
  let shared := computeShares (runningMembers formed) (lookAhead loaded)
  meterSecond (eachTrain rampTrain TrainIx.all shared)

/-! ### The close (R146) -/

/-- R146: D, the delivered energy in the direction of the schedule. -/
def deliveredIn (dir : Option Side) (del : Int) : Nat :=
  match dir with
  | some .discharge => del.toNat
  | some .charge => (-del).toNat
  | none => 0

/-- R146: f in ‰. -/
def servedFraction (dir : Option Side) (sched delivered : Nat) : Nat :=
  if dir = none then 1000 else min 1000 (delivered * 1000 / sched)

/-- R146: the closing figures of interval n. -/
def closingFigures (n : Nat) (d : Dispatch) : DispatchClosing :=
  let dir := sideOf d.schedKj
  { interval := n, direction := dir, scheduled := d.schedKj.natAbs, deliveredKj := deliveredIn dir d.delKj
    fraction := servedFraction dir d.schedKj.natAbs (deliveredIn dir d.delKj) }

/-- R146: the dispatcher closes interval n, unless closing holds n already. -/
def dispatchClose (n : Nat) (s : State) : State :=
  if s.dispatch.closing.interval = n then s
  else s.withDispatch { s.dispatch with closing := closingFigures n s.dispatch, schedKj := 0, delKj := 0 }

/-- R130, R146: CLOCK_SET sets the interval number held in closing. -/
def setDispatchClosing (n : Nat) (s : State) : State :=
  s.withDispatch { s.dispatch with closing := { s.dispatch.closing with interval := n } }

end Sys2Proof.Machine
end

