-- ==== Sys2Proof/Machine/Table.lean ====
section
/-! DEFINITION. The commitment table (spec 03): admission, amendment, withdrawal, settlement and lookup, the boundary, the outcome
of a full walk, and the meanings of the table's requests. -/

namespace Sys2Proof.Machine

/-! ### Records and the index (R47) -/

/-- R47: whether a record's key lies before another's in the order index. -/
def keyBefore (a b : Entry) : Bool := decide (a.first < b.first) || (decide (a.first = b.first) && decide (a.seq < b.seq))

/-- R47: a record joins the index at its key's place. -/
def insertEntry (e : Entry) : List Entry → List Entry
  | [] => [e]
  | x :: xs => if keyBefore e x then e :: x :: xs else x :: insertEntry e xs

/-- The record with the id of e becomes e. -/
def putEntry (e : Entry) (s : State) : State :=
  s.setEntries (s.table.entries.map fun x => if x.id = e.id then e else x)

/-- R57, R60: a slot is freed with its record and its place in the index. -/
def freeSlot (id : Nat) (s : State) : State := s.setEntries (s.table.entries.filter fun x => decide (x.id ≠ id))

/-- R52, R54, R57: whether an entry's gate has closed: first is less than N + GATE_LEAD. -/
def gateClosed (s : State) (e : Entry) : Bool := decide (e.first < s.clock.n + s.limits.gateLead)

/-! ### Ids and sequence numbers (R49, R50) -/

/-- R49: the value after an id, with 65,535 followed by 1. -/
def idAfter (id : Nat) : Nat := if 65535 ≤ id then 1 else id + 1

/-- R49: the first value from id on that none of the records holds. As many tries as there are records leave one that is free. -/
def freeIdFrom (es : List Entry) : Nat → Nat → Nat
  | 0, id => id
  | tries + 1, id => if es.any fun e => e.id == id then freeIdFrom es tries (idAfter id) else id

/-- R49: the id the next admission takes. -/
def takeId (s : State) : Nat := freeIdFrom s.table.entries s.table.entries.length s.table.nextId

/-- R50: the seq the next admission takes. Past 4,294,967,295 the spec states no result: a free value of R46's range (log 1). -/
def takeSeq (s : State) : Nat :=
  if s.table.lastSeq < 4294967295 then s.table.lastSeq + 1
  else 1 + (Config.seqAfterMax s.freeCount).toNat % 4294967295

/-- Whether the next admission uses a free value (log 1). -/
def seqIsFree (s : State) : Bool := decide (4294967295 ≤ s.table.lastSeq)

/-! ### Trials (R91) -/

/-- R91, R92: the candidate's trial starts at once on a VALID projection whose rows reach its last interval; otherwise it
waits. -/
def placeTrial (c : Candidate) (s : State) : Trial :=
  match s.proj.state, s.proj.walkBasis with
  | .valid, some w => if trialReaches w.base c then .running c (trialIncluded s.table.entries c) else .waiting c
  | _, _ => .waiting c

/-- R91: a trial starts or waits. -/
def startTrial (c : Candidate) (s : State) : State := s.withProj { s.proj with trial := placeTrial c s }

/-- R91, R184: a candidate is handed to the engine with no restarts, and its request stays in flight. -/
def handCandidate (c : Candidate) (f : InFlight) (s : State) : State :=
  let s' := s.withProj { s.proj with restarts := 0 }
  startTrial c (s'.withPort { s'.port with inFlight := some f })

/-! ### Admission (R51, R52) -/

/-- R51, R54: the ranges of power and price. -/
def powerOk (p : Nat) : Bool := decide (1 ≤ p) && decide (p ≤ 500000)
def priceOk (p : Int) : Bool := decide (-1000000 ≤ p) && decide (p ≤ 1000000)

/-- R51 step 1: the entry an ADMIT asks for, if every argument is in range. The sums are formed without wrapping, and an entry
cannot reach across the 32-bit limit of the interval number (log 11). -/
def candidateOf (s : State) (a : AdmitArgs) : Option Entry := do
  let kind ← entryKindOf a.kind
  let e : Entry :=
    { id := 0, kind, first := a.first.toNat, span := a.span.toNat, power := a.power.toNat, price := a.price.toInt
      reference := a.reference.toNat, seq := 0, status := .admitted, delivered := 0, shortCount := 0 }
  if 1 ≤ e.span ∧ e.span ≤ 96 ∧ powerOk e.power = true ∧ priceOk e.price = true
      ∧ s.clock.n + s.limits.gateLead ≤ e.first ∧ e.last ≤ s.clock.n + 191 ∧ e.last ≤ 4294967295 then
    some e
  else none

/-- R51: ADMIT as taken. -/
def ownAdmit (a : AdmitArgs) (s : State) : State :=
  match candidateOf s a with
  | none => answer Request.admitEntry.code .badArgument [] s
  | some e =>
    if s.mode ≠ .normal then answer Request.admitEntry.code .modeRefused [] s
    else if 128 ≤ s.table.entries.length then answer Request.admitEntry.code .tableFull [] s
    else handCandidate ⟨e, false⟩ .admitEntry s

/-- R49, R50, R52: an entry is stored. -/
def storeEntry (e : Entry) (s : State) : State :=
  (s.withTable
    { entries := insertEntry e s.table.entries, nextId := idAfter e.id, lastSeq := e.seq }).withFreeCount
    (if seqIsFree s then s.freeCount + 1 else s.freeCount)

/-- R52: an ADMIT whose trial was accepted. -/
def completeAdmit (e : Entry) (s : State) : State :=
  if gateClosed s e then answer Request.admitEntry.code .gateClosed [] s
  else
    let e' := { e with id := takeId s, seq := takeSeq s }
    answer Request.admitEntry.code .ok (u16 e'.id ++ u32 e'.seq ++ u8 e'.status.code) (basisChange (storeEntry e' s))

/-! ### Amendment (R54, R55, R56) -/

/-- The fields an AMEND names, each with its new value. -/
structure Amendment where
  power : Option Nat
  price : Option Int
  reference : Option Nat
deriving DecidableEq, Repr

/-- R54 step 1, R201: the fields an AMEND names, if it names one, names no other bit, and every named value is in range. -/
def amendmentOf (a : AmendArgs) : Option Amendment :=
  let m : Amendment :=
    { power := if a.fields.getLsbD 0 then some a.power.toNat else none
      price := if a.fields.getLsbD 1 then some a.price.toInt else none
      reference := if a.fields.getLsbD 2 then some a.reference.toNat else none }
  if 1 ≤ a.fields.toNat ∧ a.fields.toNat ≤ 7 ∧ m.power.all powerOk = true ∧ m.price.all priceOk = true then some m
  else none

/-- An entry with the named fields at their new values. -/
def amended (e : Entry) (m : Amendment) : Entry :=
  { e with power := m.power.getD e.power, price := m.price.getD e.price, reference := m.reference.getD e.reference }

/-- R54: AMEND as taken. -/
def ownAmend (client : Client) (a : AmendArgs) (s : State) : State :=
  match amendmentOf a with
  | none => answer Request.amend.code .badArgument [] s
  | some m =>
    match findEntry s a.id.toNat with
    | none => answer Request.amend.code .noSuchEntry [] s
    | some e =>
      let e' := amended e m
      if !e.status.isOpen then answer Request.amend.code .wrongState [] s
      else if client = .trading ∧ gateClosed s e = true then answer Request.amend.code .gateClosed [] s
      else if e.power < e'.power ∧ s.mode ≠ .normal then answer Request.amend.code .modeRefused [] s
      else if e'.power ≠ e.power then
        handCandidate ⟨{ e with power := e'.power }, true⟩ (.amend client e.id e'.power m.price m.reference) s
      else if e' = e then answer Request.amend.code .ok (amendBytes e) s
      else answer Request.amend.code .ok (amendBytes e') (basisChange (putEntry e' s))

/-- R55: a status after an accepted amendment. -/
def recoverIf (st : EntryStatus) (s : State) : State := if st.isAtRisk then raise .recovered s else s

/-- R55: an AMEND whose trial was accepted, on the entry as it stands. -/
def completeAmend (client : Client) (id : Nat) (m : Amendment) (s : State) : State :=
  match findEntry s id with
  | none => answer Request.amend.code .wrongState [] s
  | some e =>
    if !e.status.isOpen then answer Request.amend.code .wrongState [] s
    else if client = .trading ∧ gateClosed s e = true then answer Request.amend.code .gateClosed [] s
    else
      let e' := { amended e m with status := .admitted }
      answer Request.amend.code .ok (amendBytes e') (basisChange (recoverIf e.status (putEntry e' s)))

/-! ### Withdrawal, settlement and lookup (R57 to R63) -/

/-- R58: an ACTIVE entry withdrawn by the plant client. -/
def curtailed (e : Entry) : Entry := { e with status := .curtailed, shortCount := e.shortCount + 1 }

/-- R57, R58: WITHDRAW. -/
def ownWithdraw (client : Client) (id : Half) (s : State) : State :=
  match findEntry s id.toNat with
  | none => answer Request.withdraw.code .noSuchEntry [] s
  | some e =>
    if e.status.isOpen then
      if client = .trading ∧ gateClosed s e = true then answer Request.withdraw.code .gateClosed [] s
      else answer Request.withdraw.code .ok (u8 e.status.code) (basisChange (freeSlot e.id s))
    else if client = .plant ∧ e.status = .active then
      let e' := curtailed e
      answer Request.withdraw.code .ok (u8 e'.status.code ++ u32 e'.delivered ++ u8 e'.shortCount)
        (basisChange (raise .entryClosed (putEntry e' s)))
    else answer Request.withdraw.code .wrongState [] s

/-- R60: SETTLE. -/
def ownSettle (id : Half) (s : State) : State :=
  match findEntry s id.toNat with
  | none => answer Request.settle.code .noSuchEntry [] s
  | some e =>
    if e.status.isClosed then answer Request.settle.code .ok (settleBytes e) (freeSlot e.id s)
    else answer Request.settle.code .wrongState [] s

/-- R61: QUERY_ENTRY. -/
def ownQueryEntry (id : Half) (s : State) : State :=
  match findEntry s id.toNat with
  | none => answer Request.queryEntry.code .noSuchEntry [] s
  | some e => answer Request.queryEntry.code .ok (entryBytes e) s

/-- R62: the matching records whose key is greater than a resume position, in index order. -/
def matchesAfter (s : State) (first seq : Nat) (hit : Entry → Bool) : List Entry :=
  s.table.entries.filter fun e =>
    (decide (first < e.first) || (decide (first = e.first) && decide (seq < e.seq))) && hit e

/-- R62, R63: a page of up to 16 ids with the count, the more flag and the resume position. -/
def pageBytes (first seq : Nat) (found : List Entry) : List Byte :=
  let page := found.take 16
  let resume := match page.getLast? with
    | none => (first, seq)
    | some e => (e.first, e.seq)
  u8 page.length ++ flag (decide (16 < found.length)) ++ u32 resume.1 ++ u32 resume.2 ++ page.flatMap fun e => u16 e.id

/-- R62: FIND_INTERVAL. -/
def ownFindInterval (n first seq : Word) (s : State) : State :=
  answer Request.findInterval.code .ok
    (pageBytes first.toNat seq.toNat (matchesAfter s first.toNat seq.toNat fun e => e.covers n.toNat)) s

/-- R63: FIND_REFERENCE. -/
def ownFindReference (tag : Half) (first seq : Word) (s : State) : State :=
  answer Request.findReference.code .ok
    (pageBytes first.toNat seq.toNat (matchesAfter s first.toNat seq.toNat fun e => e.reference == tag.toNat)) s

/-! ### The boundary (R64 to R68) -/

/-- R65: what an interval adds to an ACTIVE energy entry: the energy credited, and whether the interval was short. -/
def energyCredit (l : Limits) (c : DispatchClosing) (e : Entry) : Nat × Bool :=
  if c.direction = some e.kind.side then
    (e.power * l.lInt * c.fraction / 3600000, decide (c.fraction + l.curtailTol < 1000))
  else (e.power * l.lInt / 3600, false)

/-- R66, R162: the shares of the entries named to the receiver for a direction, by id. -/
def reserveShares (s : State) (d : Dir) : List (Nat × Nat) :=
  energyShares ((s.act d).closing.servedKj / 3600)
    (s.table.entries.filter fun e => decide (e.kind = reserveKind d) && decide (e.status = .active))

/-- R66: what an interval adds to an ACTIVE reserve entry. -/
def reserveCredit (s : State) (d : Dir) (e : Entry) : Nat × Bool :=
  (((reserveShares s d).find? fun x => x.1 == e.id).elim 0 (·.2), (s.act d).closing.isShort s.limits.curtailTol)

/-- R64 step 1: an entry with its figures for the interval that ended. R66 only adds to the delivered figure of a reserve entry; that it
adds without bound, past the range R46 gives, is the model's choice (log 21). -/
def credited (s : State) (e : Entry) : Entry :=
  if e.status = .active then
    let c := match e.kind.reserveDir with
      | none => energyCredit s.limits s.dispatch.closing e
      | some d => reserveCredit s d e
    { e with delivered := e.delivered + c.1, shortCount := if c.2 then e.shortCount + 1 else e.shortCount }
  else e

/-- R67: whether an entry closes at the boundary that ends an interval. -/
def closesAt (ended : Nat) (e : Entry) : Bool := decide (e.status = .active) && decide (e.last = ended)

/-- R64 step 2, R67: an entry whose last interval ended closes. -/
def closedAt (ended : Nat) (e : Entry) : Entry :=
  if closesAt ended e then { e with status := if e.shortCount = 0 then .delivered else .curtailed } else e

/-- R64 step 3, R68: an entry whose first interval begins becomes ACTIVE. -/
def openedAt (begun : Nat) (e : Entry) : Entry :=
  if e.status.isOpen ∧ e.first = begun then { e with status := .active } else e

/-- R65, R66: the neighbours' closing figures for the interval are taken: whichever block comes first closes it. -/
def takeClosings (ended : Nat) (s : State) : State := eachDir (closeAct ended) (dispatchClose ended s)

/-- R64: the table's response to the boundary that ends one interval and begins the next. -/
def tableBoundary (ended begun : Nat) (s : State) : State :=
  let s1 := takeClosings ended s
  let es := s1.table.entries.map (credited s1)
  let s2 := s1.setEntries (es.map fun e => openedAt begun (closedAt ended e))
  if es.any (closesAt ended) then raise .entryClosed s2 else s2

/-! ### Walk outcomes (R70, R71) -/

/-- R70: the risk an outcome gives an entry, if it lists it, by id and seq, as excluded. -/
def exclusionOf (o : Outcome) (e : Entry) : Option Risk :=
  (o.excluded.find? fun x => x.1 == e.id && x.2.1 == e.seq).map fun x => x.2.2

/-- R70: whether an outcome lists an entry as included. -/
def Outcome.includes (o : Outcome) (e : Entry) : Bool := o.included.contains (e.id, e.seq)

/-- R70, R71: an entry after an outcome. One that has become ACTIVE or closed, or holds the id with another seq, is left. -/
def judged (o : Outcome) (e : Entry) : Entry :=
  if e.status.isOpen then
    match exclusionOf o e with
    | some r => { e with status := .atRisk r }
    | none => if o.includes e then { e with status := .admitted } else e
  else e

/-- R70: whether an outcome demotes an entry, and whether it recovers one. -/
def demotes (o : Outcome) (e : Entry) : Bool := decide (e.status = .admitted) && (exclusionOf o e).isSome
def recovers (o : Outcome) (e : Entry) : Bool := e.status.isAtRisk && (exclusionOf o e).isNone && o.includes e

/-- R70: the table applies the outcome of a full walk. -/
def applyOutcome (o : Outcome) (s : State) : State :=
  let es := s.table.entries
  let s1 := s.setEntries (es.map (judged o))
  let s2 := if es.any (demotes o) then raise .atRisk s1 else s1
  if es.any (recovers o) then raise .recovered s2 else s2

/-! ### Meanings -/

/-- ADMIT (R51). -/
def execAdmit (h : Head) (a : AdmitArgs) (s : State) : Host.Outcome State Fault Refusal :=
  .next (takeRequest .admitEntry h (ownAdmit a) s)

/-- AMEND (R54, R56). -/
def execAmend (h : Head) (a : AmendArgs) (s : State) : Host.Outcome State Fault Refusal :=
  .next (takeRequest .amend h (ownAmend h.client a) s)

/-- WITHDRAW (R57, R58). -/
def execWithdraw (h : Head) (id : Half) (s : State) : Host.Outcome State Fault Refusal :=
  .next (takeRequest .withdraw h (ownWithdraw h.client id) s)

/-- SETTLE (R60). -/
def execSettle (h : Head) (id : Half) (s : State) : Host.Outcome State Fault Refusal :=
  .next (takeRequest .settle h (ownSettle id) s)

/-- QUERY_ENTRY (R61). -/
def execQueryEntry (h : Head) (id : Half) (s : State) : Host.Outcome State Fault Refusal :=
  .next (takeRequest .queryEntry h (ownQueryEntry id) s)

/-- FIND_INTERVAL (R62). -/
def execFindInterval (h : Head) (n first seq : Word) (s : State) : Host.Outcome State Fault Refusal :=
  .next (takeRequest .findInterval h (ownFindInterval n first seq) s)

/-- FIND_REFERENCE (R63). -/
def execFindReference (h : Head) (tag : Half) (first seq : Word) (s : State) : Host.Outcome State Fault Refusal :=
  .next (takeRequest .findReference h (ownFindReference tag first seq) s)

end Sys2Proof.Machine
end

