-- ==== Sys2Proof/Machine/Projection.lean ====
section
/-! DEFINITION. The projection engine's events (spec 04): completions of full and trial walks and RESTART, and the requests that
read it, with the readout cursor (spec 09, R192, R193). -/

namespace Sys2Proof.Machine

/-! ### A full walk completes (R89) -/

/-- R89 steps 1 to 4: the record and the rows after a walk from inputs w. -/
def Projection.completedWith (p : Projection) (w : WalkInputs) (e : WalkEnd) : Projection :=
  { p with
    state := .valid, baseInterval := w.base, walk := none, completed := (p.completed + 1) % 4294967296
    passes := e.passes, demoted := e.outcome.excluded.length, recovered := e.outcome.included.length
    unresolvedCount := (e.rows.filter (·.unresolved)).length
    firstUnresolved := (e.rows.find? (·.unresolved)).map (·.interval)
    rows := e.rows, walkBasis := some w }

/-- R89 step 7: a WAITING trial starts. -/
def releaseTrial (s : State) : State :=
  match s.proj.trial with
  | .waiting c => startTrial c s
  | .none | .running _ _ => s

/-- R89: the completion of the full walk that runs from inputs w. -/
def completeWalk (w : WalkInputs) (s : State) : State :=
  let e := fullWalk w
  releaseTrial (raise .projectionDone (applyOutcome e.outcome (s.withProj (s.proj.completedWith w e))))

/-- R89: a full walk completes; with none running the event has no cause and changes nothing (log 8). -/
def fullWalkCompletes (s : State) : State :=
  match s.proj.walk with
  | none => s
  | some w => completeWalk w s

/-! ### A trial walk completes (R93) -/

/-- R52, R55: the request in flight completes on an accepted trial of the candidate. -/
def completeAccepted (c : Candidate) (s : State) : State :=
  match s.port.inFlight with
  | none => s
  | some .admitEntry => completeAdmit c.entry s
  | some (.amend client id power price reference) => completeAmend client id ⟨some power, price, reference⟩ s

/-- R52, R55: the reply to a refused trial: the packed verdict and the interval. -/
def refuseInfeasible (r : Risk) (s : State) : State :=
  answerInFlight .refusedInfeasible (packedVerdict r.verdict false ++ u32 r.interval) s

/-- R93: a RUNNING trial is judged on the walk basis and the rows as they stand. -/
def judgeTrial (c : Candidate) (included : List Entry) (w : WalkInputs) (s : State) : State :=
  match trialJudgement w s.proj.rows c included with
  | some r => refuseInfeasible r (endTrial s)
  | none => completeAccepted c (endTrial s)

/-- R93: a trial walk completes; with none RUNNING the event has no cause and changes nothing (log 8). -/
def trialCompletes (s : State) : State :=
  match s.proj.trial, s.proj.walkBasis with
  | .running c included, some w => judgeTrial c included w s
  | _, _ => s

/-! ### RESTART (R97) -/

/-- R97: RESTART at the engine. -/
def restartEngine (s : State) : State :=
  match s.proj.state with
  | .unavailable => s
  | .stale | .valid => startWalk s

/-! ### The cursor (R192, R193) -/

def State.setCursor (s : State) (c : Cursor) : State := s.withPort { s.port with cursor := c }

/-- R192: READ_PROJECTION. -/
def ownReadProjection (row count reload view : Byte) (s : State) : State :=
  match flagOf reload, viewOf view with
  | some again, some v =>
    if row.toNat ≤ 191 ∧ 1 ≤ count.toNat ∧ count.toNat ≤ 192 ∧ row.toNat + count.toNat ≤ 192 then
      if s.proj.state = .unavailable then answer Request.readProjection.code .unavailable [] s
      else
        answer Request.readProjection.code .ok
          (u8 s.proj.state.code ++ u32 s.proj.baseInterval ++ u32 s.proj.completed)
          (s.setCursor
            { baseRow := row.toNat, currentRow := row.toNat, countBase := count.toNat, countLeft := count.toNat
              reload := again, view := v })
    else answer Request.readProjection.code .badArgument [] s
  | _, _ => answer Request.readProjection.code .badArgument [] s

/-- R193: how many rows a page carries. -/
def Cursor.pageLength (c : Cursor) : Nat :=
  match c.view with
  | .summary => min c.countLeft 8
  | .full => min c.countLeft 2

/-- R193: the cursor after a page. -/
def Cursor.advance (c : Cursor) : Cursor :=
  let k := c.pageLength
  if c.countLeft = k ∧ c.reload = true then { c with currentRow := c.baseRow, countLeft := c.countBase }
  else { c with currentRow := c.currentRow + k, countLeft := c.countLeft - k }

/-- R193, R198: one row in the cursor's view. -/
def rowBytes (v : View) (r : Row) : List Byte :=
  match v with
  | .summary => summaryBytes r
  | .full => fullBytes r

/-- R193: READ_NEXT. -/
def ownReadNext (s : State) : State :=
  let c := s.port.cursor
  if c.countLeft = 0 then answer Request.readNext.code .wrongState [] s
  else
    answer Request.readNext.code .ok
      (((s.proj.rows.drop c.currentRow).take c.pageLength).flatMap (rowBytes c.view)) (s.setCursor c.advance)

/-! ### Meanings -/

/-- FULL_WALK_COMPLETE (R89). -/
def execFullWalkComplete (s : State) : Host.Outcome State Fault Refusal :=
  .next (unlessHeld fullWalkCompletes s)

/-- TRIAL_WALK_COMPLETE (R93). -/
def execTrialWalkComplete (s : State) : Host.Outcome State Fault Refusal :=
  .next (unlessHeld trialCompletes s)

/-- PROJECTION_STATE (R96). -/
def execProjectionState (h : Head) (s : State) : Host.Outcome State Fault Refusal :=
  .next (takeRequest .projectionState h
    (fun s => answer Request.projectionState.code .ok (projectionBytes s.proj) s) s)

/-- READ_PROJECTION (R192). -/
def execReadProjection (h : Head) (row count reload view : Byte) (s : State) : Host.Outcome State Fault Refusal :=
  .next (takeRequest .readProjection h (ownReadProjection row count reload view) s)

/-- READ_NEXT (R193). -/
def execReadNext (h : Head) (s : State) : Host.Outcome State Fault Refusal :=
  .next (takeRequest .readNext h ownReadNext s)

end Sys2Proof.Machine
end

