-- ==== Sys2Proof/Machine/Responses.lean ====
section
/-! DEFINITION. Each block's response to a second and to a boundary, and the responses that are due and not yet made: R69, R90 and
their like let a walk, a request or a second fall between two blocks' responses to one boundary (log 24). -/

namespace Sys2Proof.Machine

/-- Whether a response is to a second. -/
def answersSecond : Part → Bool
  | .accountSecond | .storesSecond | .trainsSecond | .dispatchSecond | .ordersSecond | .supervisionSecond
  | .clockSecond => true
  | .accountClose | .storesLoss | .tableBoundary | .dispatchClose | .ordersBoundary | .trainsDay
  | .projectionBoundary => false

/-! ### Responses -/

/-- R115: the sequencer's response to a boundary. -/
def trainsDay (b : Turn) (s : State) : State := if b.newDay then trainsNewDay s else s

/-- One block's response to a boundary. -/
def respondBoundary (b : Turn) (p : Part) (s : State) : State :=
  match p with
  | .accountClose => accountClose s
  | .storesLoss => storesLoss s
  | .tableBoundary => tableBoundary b.ended b.begun s
  | .dispatchClose => dispatchClose b.ended s
  | .ordersBoundary => ordersBoundary b.ended b.begun s
  | .trainsDay => trainsDay b s
  | .projectionBoundary => basisChange s
  | .accountSecond | .storesSecond | .trainsSecond | .dispatchSecond | .ordersSecond | .supervisionSecond
  | .clockSecond => s

/-- One block's response to a second; the clock's own is made apart. -/
def respondSecond (p : Part) (s : State) : State :=
  match p with
  | .accountSecond => accountSecond s
  | .storesSecond => storesSecond s
  | .trainsSecond => trainsSecond s
  | .dispatchSecond => dispatchSecond s
  | .ordersSecond => ordersSecond s
  | .supervisionSecond => supervisionSecond s
  | .clockSecond | .accountClose | .storesLoss | .tableBoundary | .dispatchClose | .ordersBoundary | .trainsDay
  | .projectionBoundary => s

/-! ### Responses put off (log 24) -/

/-- A response that is due is made. -/
def respondDue (d : Due) (s : State) : State :=
  match d with
  | .second p => respondSecond p s
  | .boundary b p => respondBoundary b p s

/-- The responses that are due are made in turn. -/
def respondAll (ds : List Due) (s : State) : State := ds.foldl (fun s d => respondDue d s) s

/-- The responses due to earlier boundaries (or to earlier seconds) are made, oldest first; the others stay due. -/
def settle (boundary : Bool) (s : State) : State :=
  respondAll (s.due.filter fun d => d.toBoundary == boundary)
    (s.withDue (s.due.filter fun d => d.toBoundary != boundary))

/-- The oldest response that is due is made; with none due nothing changes. -/
def respondNext (s : State) : State :=
  match s.due with
  | [] => s
  | d :: ds => respondDue d (s.withDue ds)

/-- Of some responses, in order, those named later are put off and become due; the others are made in turn. -/
def respondOrPutOff (later : List Part) (ds : List Due) (s : State) : State :=
  respondAll (ds.filter fun d => !later.contains d.part)
    (s.withDue (s.due ++ ds.filter fun d => later.contains d.part))

end Sys2Proof.Machine
end

