-- ==== Sys2Proof/Machine/Clock.lean ====
section
/-! DEFINITION. The interval clock (spec 06, R127 to R133): seconds, the end of an interval, sync pulses, and the meanings of its
requests. -/

namespace Sys2Proof.Machine

/-- R129: the clock record after it ends an interval. -/
def Clock.ended (c : Clock) (l : Limits) : Clock :=
  { c with s := 0, n := nextInterval c.n, dayPos := if intervalsPerDay l ≤ c.dayPos + 1 then 0 else c.dayPos + 1 }

/-- R128: the clock's own response to a second that does not end the interval. -/
def Clock.counted (c : Clock) : Clock := { c with s := c.s + 1 }

/-- R128: whether the next second ends the interval. -/
def secondEnds (s : State) : Bool := s.clock.running && decide (s.limits.lInt ≤ s.clock.s + 1)

/-- R129: the boundary that ends the current interval. -/
def turnOf (s : State) : Turn :=
  let c := s.clock.ended s.limits
  ⟨s.clock.n, c.n, decide (c.dayPos = 0)⟩

/-- R129: the clock ends the interval. -/
def endInterval (s : State) : State := s.withClock (s.clock.ended s.limits)

/-- R128: the clock's own response to a second. -/
def clockSecond (s : State) : State :=
  if secondEnds s then endInterval s
  else if s.clock.running then s.withClock s.clock.counted
  else s

/-! ### Sync pulses (R131) -/

/-- R131: whether an edge on IPULSE is taken. -/
def pulseTaken (s : State) : Bool := s.clock.running && decide (s.limits.syncMode = .pulse)

/-- R131: what a pulse that is taken does, by the s it captures. -/
def captureOf (s : State) : Capture :=
  if s.limits.lInt ≤ s.clock.s + 2 then .boundary else if s.clock.s ≤ 2 then .restart else .slip

/-- R131: the captured s and what the pulse did are kept. -/
def keepCapture (s : State) : State :=
  s.withClock { s.clock with lastCapture := some (s.clock.s, captureOf s) }

/-- R131: the count restarts. -/
def restartCount (s : State) : State := s.withClock { s.clock with s := 0 }

/-! ### Requests -/

/-- The interval before another, wrapping from 0 to 4,294,967,295 (R146). -/
def intervalBefore (n : Nat) : Nat := (n + 4294967295) % 4294967296

/-- R130: a CLOCK_SET that is taken. What is still due to a boundary of the old numbering is made first (log 24). -/
def setClock (n dayPos seconds : Nat) (s : State) : State :=
  let s' := (settle true s).withClock { running := true, n, s := seconds, dayPos, lastCapture := none }
  basisChange (eachDir (setActClosing (intervalBefore n)) (setDispatchClosing (intervalBefore n) s'))

/-- R130: CLOCK_SET. -/
def ownClockSet (n : Word) (dayPos seconds : Half) (s : State) : State :=
  if intervalsPerDay s.limits ≤ dayPos.toNat ∨ s.limits.lInt ≤ seconds.toNat then
    answer Request.clockSet.code .badArgument [] s
  else if s.mode ≠ .commissioning then answer Request.clockSet.code .modeRefused [] s
  else
    let s' := setClock n.toNat dayPos.toNat seconds.toNat s
    answer Request.clockSet.code .ok (clockBytes s'.clock) s'

/-! ### Meanings -/

/-- CLOCK_SET (R130). -/
def execClockSet (h : Head) (n : Word) (dayPos seconds : Half) (s : State) : Host.Outcome State Fault Refusal :=
  .next (takeRequest .clockSet h (ownClockSet n dayPos seconds) s)

/-- CLOCK_READ (R133). -/
def execClockRead (h : Head) (s : State) : Host.Outcome State Fault Refusal :=
  .next (takeRequest .clockRead h (fun s => answer Request.clockRead.code .ok (clockReadBytes s) s) s)

end Sys2Proof.Machine
end

