-- ==== Sys2Proof/Machine/Events.lean ====
section
/-! DEFINITION. The events several blocks respond to: the second (R128), the boundary (R129) and the sync pulse (R131), each one
whole step (spec 95) in which the blocks respond in the order the command carries (log 2), but for the responses it puts off
(log 24). -/

namespace Sys2Proof.Machine

/-! ### The order of responses -/

/-- The blocks' responses to a second, in the order taken where a command names none (log 2). -/
def secondParts : List Part :=
  [.accountSecond, .storesSecond, .trainsSecond, .dispatchSecond, .ordersSecond, .supervisionSecond, .clockSecond]

/-- The blocks' responses to a boundary, in the order taken where a command names none (log 2). -/
def boundaryParts : List Part :=
  [.accountClose, .storesLoss, .tableBoundary, .dispatchClose, .ordersBoundary, .trainsDay, .projectionBoundary]

/-- Each response of a list once, at its first place. -/
def firsts : List Part → List Part
  | [] => []
  | p :: ps => p :: (firsts ps).filter (· ≠ p)

/-- Every response in the order a command names, the unnamed ones after it. -/
def fullOrder (order : List Part) : List Part := firsts (order ++ secondParts ++ boundaryParts)

/-- The responses to a second that come before the clock's own. -/
def beforeClock (order : List Part) : List Part :=
  ((fullOrder order).takeWhile (· ≠ .clockSecond)).filter answersSecond

/-- The responses that come after the clock's own: those named after it, then the responses to a boundary named before it, since
no block responds to a boundary that the clock has not raised. -/
def afterClock (order : List Part) : List Part :=
  let l := fullOrder order
  (l.dropWhile (· ≠ .clockSecond)).filter (· ≠ .clockSecond)
    ++ (l.takeWhile (· ≠ .clockSecond)).filter fun p => !answersSecond p

/-- The responses to a boundary, in order. -/
def boundaryOrder (order : List Part) : List Part := (fullOrder order).filter fun p => !answersSecond p

/-- The responses due to a boundary, in order. -/
def boundaryDues (order : List Part) (b : Turn) : List Due := (boundaryOrder order).map (.boundary b)

/-- The responses due after the clock's own to a second: to the second, and to the boundary if the second raised one. -/
def duesAfterClock (order : List Part) (raised : Option Turn) : List Due :=
  (afterClock order).flatMap fun p =>
    if answersSecond p then [.second p]
    else
      match raised with
      | none => []
      | some b => [.boundary b p]

/-! ### Events -/

/-- R129: what is still due to an earlier boundary is made; the clock ends the interval; and the blocks respond to the boundary in
order. -/
def boundaryNow (how : Schedule) (s : State) : State :=
  let s0 := settle true s
  respondOrPutOff how.later (boundaryDues how.order (turnOf s0)) (endInterval s0)

/-- The boundary a second raises. -/
def turnRaised (s : State) : Option Turn := if secondEnds s then some (turnOf s) else none

/-- What is due to earlier events of the kinds that a second raises is made: to earlier seconds, and to an earlier boundary if this
second ends the interval. -/
def settleForSecond (s : State) : State :=
  let s0 := settle false s
  if secondEnds s0 then settle true s0 else s0

/-- R128: a second, and the boundary it raises if it brings s to L_INT. -/
def secondNow (how : Schedule) (s : State) : State :=
  let s1 := respondOrPutOff how.later ((beforeClock how.order).map .second) (settleForSecond s)
  respondOrPutOff how.later (duesAfterClock how.order (turnRaised s1)) (clockSecond s1)

/-- R131: a sync pulse that is taken. -/
def pulseNow (how : Schedule) (s : State) : State :=
  match captureOf s with
  | .boundary => boundaryNow how (keepCapture s)
  | .restart => restartCount (keepCapture s)
  | .slip => raise .clockSlip (keepCapture s)

/-! ### Meanings -/

/-- SECOND_EVENT (R128). -/
def execSecondEvent (how : Schedule) (s : State) : Host.Outcome State Fault Refusal :=
  .next (unlessHeld (secondNow how) s)

/-- BOUNDARY (R129): the clock ends the interval now; while UNSET it raises no boundary (R128). -/
def execBoundary (how : Schedule) (s : State) : Host.Outcome State Fault Refusal :=
  .next (unlessHeld (fun s => if s.clock.running then boundaryNow how s else s) s)

/-- SYNC_PULSE (R131). -/
def execSyncPulse (how : Schedule) (s : State) : Host.Outcome State Fault Refusal :=
  .next (unlessHeld (fun s => if pulseTaken s then pulseNow how s else s) s)

end Sys2Proof.Machine
end

