-- ==== Sys2Proof/Machine/Port.lean ====
section
/-! DEFINITION. The request port's own commands (spec 09): notices and the mask, RESTART, IDENTIFY, power-on reset, and the frames
that make no request. -/

namespace Sys2Proof.Machine

/-! ### Notices and the mask (R190, R191) -/

/-- R190: NOTICES: the reply carries the pending set before the clear, after it, and the mask. -/
def ownNotices (clear : Half) (s : State) : State :=
  let s' := s.withPort { s.port with latched := s.port.latched &&& ~~~clear }
  answer Request.notices.code .ok
    (halfBytes (pendingNotices s) ++ halfBytes (pendingNotices s') ++ halfBytes s'.port.mask) s'

/-- A mask is taken and returned. -/
def answerMask (r : Request) (mask : Half) (s : State) : State :=
  answer r.code .ok (halfBytes mask) (s.withPort { s.port with mask := mask })

/-- R191: NOTICE_MASK_SET. -/
def ownMaskSet (set : Half) (s : State) : State := answerMask .noticeMaskSet (s.port.mask ||| set) s

/-- R191: the notices a NOTICE_MASK_CLEAR may not remove. -/
def keptMask (s : State) : Half := if s.mode = .safe then safeMask else 0

/-- R191: NOTICE_MASK_CLEAR. -/
def ownMaskClear (set : Half) (s : State) : State :=
  answerMask .noticeMaskClear (s.port.mask &&& ~~~(set &&& ~~~keptMask s)) s

/-! ### RESTART (R194) -/

/-- R194: RESTART at the port. -/
def restartPort (s : State) : State :=
  s.withPort { s.port with latched := 0, mask := defaultMask, cursor := Cursor.cleared }

/-- R194: RESTART. -/
def ownRestart (s : State) : State :=
  answer Request.restart.code .ok [] (restartEngine (restartSupervision (restartOrders (restartPort s))))

/-! ### IDENTIFY (R195) -/

/-- R195: vendor 0x4F, part 0x0072, revision 1. -/
def identity : List Byte := [0x4F, 0x00, 0x72, 0x01]

/-! ### Meanings -/

/-- POWER_ON_RESET (R1): the supply or nRST takes new levels, and every piece of state its power-on value, for the TRIP levels given.
While either cause stands the part is held in reset; with both clear the reset has ended and each block begins its work (log 3). The
commands that wait stay, and the count of free values used goes on. -/
def execPowerOnReset (lines : ResetLines) (s : State) : Host.Outcome State Fault Refusal :=
  .next ((((State.afterReset lines.trip).withPor lines.causes).withFreeCount s.freeCount).withPending s.pending)

/-- IDENTIFY (R195). -/
def execIdentify (h : Head) (s : State) : Host.Outcome State Fault Refusal :=
  .next (takeRequest .identify h (answer Request.identify.code .ok identity) s)

/-- NOTICES (R190). -/
def execNotices (h : Head) (clear : Half) (s : State) : Host.Outcome State Fault Refusal :=
  .next (takeRequest .notices h (ownNotices clear) s)

/-- NOTICE_MASK_SET (R191). -/
def execNoticeMaskSet (h : Head) (set : Half) (s : State) : Host.Outcome State Fault Refusal :=
  .next (takeRequest .noticeMaskSet h (ownMaskSet set) s)

/-- NOTICE_MASK_CLEAR (R191). -/
def execNoticeMaskClear (h : Head) (set : Half) (s : State) : Host.Outcome State Fault Refusal :=
  .next (takeRequest .noticeMaskClear h (ownMaskClear set) s)

/-- RESTART (R194). -/
def execRestart (h : Head) (s : State) : Host.Outcome State Fault Refusal :=
  .next (takeRequest .restart h ownRestart s)

/-- FRAME_WRITTEN_WHILE_BUSY (R184): while BUSY the frame is discarded unread; without BUSY the event has no cause (log 8). -/
def execFrameWrittenWhileBusy (s : State) : Host.Outcome State Fault Refusal :=
  .next (unlessHeld (fun s => if busy s then discardFrame s else s) s)

/-- FRAME_FAILING_CHECKS (R185): an accepted frame that fails a check is answered with CODE 0 and BAD_FRAME; no block hears of
it. While BUSY the frame is discarded unread (R184). -/
def execFrameFailingChecks (_check : FrameFault) (s : State) : Host.Outcome State Fault Refusal :=
  .next (unlessHeld (fun s => if busy s then discardFrame s else answer 0 .badFrame [] (acceptFrame s)) s)

/-- UNKNOWN_REQUEST (R186): a CODE that names no request is answered with UNKNOWN_REQUEST after it has refreshed supervision. A
CODE that does name one makes no such event (log 8). -/
def execUnknownRequest (_client : Client) (code : Byte) (s : State) : Host.Outcome State Fault Refusal :=
  .next (unlessHeld (fun s =>
    if busy s then discardFrame s
    else if (Request.ofCode code).isSome then s
    else answer code .unknownRequest [] (refreshAny (acceptFrame s))) s)

end Sys2Proof.Machine
end

