-- ==== Sys2Proof/Machine/Dispatch.lean ====
section
/-! DEFINITION. The dispatch of a command to its meaning, one arm for each row of spec/opcode_table.json. -/

namespace Sys2Proof.Machine

def exec (i : Instr) (s : State) : Host.Outcome State Fault Refusal :=
  match i with
  | .powerOnReset lines => Sys2Proof.Machine.execPowerOnReset lines s
  | .secondEvent how => Sys2Proof.Machine.execSecondEvent how s
  | .readingStale => Sys2Proof.Machine.execReadingStale s
  | .startingExpiry t => Sys2Proof.Machine.execStartingExpiry t s
  | .readyMaxExpiry t => Sys2Proof.Machine.execReadyMaxExpiry t s
  | .stopTimeExpiry t => Sys2Proof.Machine.execStopTimeExpiry t s
  | .minDownExpiry t => Sys2Proof.Machine.execMinDownExpiry t s
  | .hotWindowExpiry t => Sys2Proof.Machine.execHotWindowExpiry t s
  | .heaterCycleWrap timer => Sys2Proof.Machine.execHeaterCycleWrap timer s
  | .confirmWindowExpiry d => Sys2Proof.Machine.execConfirmWindowExpiry d s
  | .holdExpiry d => Sys2Proof.Machine.execHoldExpiry d s
  | .supervisionExpiry => Sys2Proof.Machine.execSupervisionExpiry s
  | .boundary how => Sys2Proof.Machine.execBoundary how s
  | .fullWalkComplete => Sys2Proof.Machine.execFullWalkComplete s
  | .trialWalkComplete => Sys2Proof.Machine.execTrialWalkComplete s
  | .syncPulse how => Sys2Proof.Machine.execSyncPulse how s
  | .tripAssertion t => Sys2Proof.Machine.execTripAssertion t s
  | .tripRelease t => Sys2Proof.Machine.execTripRelease t s
  | .orderByte value framingError => Sys2Proof.Machine.execOrderByte value framingError s
  | .telegramGapTimeout => Sys2Proof.Machine.execTelegramGapTimeout s
  | .identify h => Sys2Proof.Machine.execIdentify h s
  | .notices h clear => Sys2Proof.Machine.execNotices h clear s
  | .noticeMaskSet h set => Sys2Proof.Machine.execNoticeMaskSet h set s
  | .noticeMaskClear h set => Sys2Proof.Machine.execNoticeMaskClear h set s
  | .restart h => Sys2Proof.Machine.execRestart h s
  | .postReading h a => Sys2Proof.Machine.execPostReading h a s
  | .readAccount h => Sys2Proof.Machine.execReadAccount h s
  | .rebase h => Sys2Proof.Machine.execRebase h s
  | .excursionClear h side => Sys2Proof.Machine.execExcursionClear h side s
  | .storeService h index direction => Sys2Proof.Machine.execStoreService h index direction s
  | .storeSet h index content => Sys2Proof.Machine.execStoreSet h index content s
  | .readStore h index => Sys2Proof.Machine.execReadStore h index s
  | .admitEntry h a => Sys2Proof.Machine.execAdmit h a s
  | .amend h a => Sys2Proof.Machine.execAmend h a s
  | .withdraw h id => Sys2Proof.Machine.execWithdraw h id s
  | .settle h id => Sys2Proof.Machine.execSettle h id s
  | .queryEntry h id => Sys2Proof.Machine.execQueryEntry h id s
  | .findInterval h n resumeFirst resumeSeq => Sys2Proof.Machine.execFindInterval h n resumeFirst resumeSeq s
  | .findReference h tag resumeFirst resumeSeq => Sys2Proof.Machine.execFindReference h tag resumeFirst resumeSeq s
  | .projectionState h => Sys2Proof.Machine.execProjectionState h s
  | .readProjection h row count reload view => Sys2Proof.Machine.execReadProjection h row count reload view s
  | .readNext h => Sys2Proof.Machine.execReadNext h s
  | .trainService h index direction => Sys2Proof.Machine.execTrainService h index direction s
  | .trainReset h index => Sys2Proof.Machine.execTrainReset h index s
  | .trainUnlock h index => Sys2Proof.Machine.execTrainUnlock h index s
  | .trainPriority h side order => Sys2Proof.Machine.execTrainPriority h side order s
  | .heaterAssign h index heater => Sys2Proof.Machine.execHeaterAssign h index heater s
  | .heaterTimer h timer period onTime => Sys2Proof.Machine.execHeaterTimer h timer period onTime s
  | .readTrain h index => Sys2Proof.Machine.execReadTrain h index s
  | .patternWrite h a => Sys2Proof.Machine.execPatternWrite h a s
  | .patternRead h index => Sys2Proof.Machine.execPatternRead h index s
  | .orderState h => Sys2Proof.Machine.execOrderState h s
  | .orderRelease h direction => Sys2Proof.Machine.execOrderRelease h direction s
  | .clockSet h n dayPos seconds => Sys2Proof.Machine.execClockSet h n dayPos seconds s
  | .clockRead h => Sys2Proof.Machine.execClockRead h s
  | .paramWrite h index value => Sys2Proof.Machine.execParamWrite h index value s
  | .paramRead h index => Sys2Proof.Machine.execParamRead h index s
  | .lockLimits h => Sys2Proof.Machine.execLockLimits h s
  | .supervisionSet h a => Sys2Proof.Machine.execSupervisionSet h a s
  | .keepalive h => Sys2Proof.Machine.execKeepalive h s
  | .forceExpiry h => Sys2Proof.Machine.execForceExpiry h s
  | .resume h => Sys2Proof.Machine.execResume h s
  | .recover h => Sys2Proof.Machine.execRecover h s
  | .enterHold h => Sys2Proof.Machine.execEnterHold h s
  | .enterSafe h => Sys2Proof.Machine.execEnterSafe h s
  | .frameWrittenWhileBusy => Sys2Proof.Machine.execFrameWrittenWhileBusy s
  | .frameFailingChecks check => Sys2Proof.Machine.execFrameFailingChecks check s
  | .unknownRequest client code => Sys2Proof.Machine.execUnknownRequest client code s

end Sys2Proof.Machine
end

