-- ==== Sys2Proof/Machine/Step.lean ====
section
/-! DEFINITION. One step of the block: the command at the front of the queue runs on the state with the queue's rest; on an empty
queue the oldest response that is due is made, and with none due the block idles (logs 10, 24). -/

namespace Sys2Proof.Machine

/-- One step. -/
def step (s : State) : Host.Outcome State Fault Refusal :=
  match s.pending with
  | [] => .next (unlessHeld respondNext s)
  | c :: rest => exec c (s.withPending rest)

/-- s with the command a word of the opcode table spells at the front of its queue. The table gives its rows no bits, so no word
spells one and s is unchanged (log 4). -/
def State.withFetchWord (s : State) (nbits w : Nat) : State :=
  match decodeTableWord nbits w with
  | none => s
  | some c => s.withPending (c :: s.pending)

end Sys2Proof.Machine
end

