-- ==== Sys2Proof/Safety.lean ====
section
/-! DEFINITION. What a sound state of the part is, law by law: the bounds and exclusions that the spec's rules own, and the
companion facts that make each law hold from one step to the next; and the words the claims use for requests. -/

namespace Sys2Proof.Machine

/-! ### What a command may touch -/

/-- The fields of the state, by name. -/
inductive Field where
  | account | heat | table | proj | trains | clock | dispatch | orders
  | mode | limits | locked | supervision | port | por | due | freeCount | pending
deriving DecidableEq, Repr

/-- Whether two states agree on a field. -/
def State.agrees (s t : State) : Field → Prop
  | .account => t.account = s.account
  | .heat => t.heat = s.heat
  | .table => t.table = s.table
  | .proj => t.proj = s.proj
  | .trains => t.trains = s.trains
  | .clock => t.clock = s.clock
  | .dispatch => t.dispatch = s.dispatch
  | .orders => t.orders = s.orders
  | .mode => t.mode = s.mode
  | .limits => t.limits = s.limits
  | .locked => t.locked = s.locked
  | .supervision => t.supervision = s.supervision
  | .port => t.port = s.port
  | .por => t.por = s.por
  | .due => t.due = s.due
  | .freeCount => t.freeCount = s.freeCount
  | .pending => t.pending = s.pending

/-- From s to t nothing changes but the named fields. -/
def Touches (fs : List Field) (s t : State) : Prop := ∀ f, f ∉ fs → s.agrees t f

/-! ### Requests -/

/-- The state in which an owner hears of a request (R184, R186): the previous reply is gone, REPLY and OVERRUN are clear, and the
ANY_REQUEST source has been handed the frame. -/
def State.accepted (s : State) : State := refreshAny (acceptFrame s)

/-- A request is in good order when the part is not held in reset, the port is free, the client may make it and its payload has its
length (R1, R184, R186, R200). -/
def InGoodOrder (i : Instr) (s : State) : Prop :=
  inReset s = false ∧ busy s = false ∧ ∃ r h, i.request? = some (r, h) ∧ permitted r h.client = true ∧ r.lengthOk h.len = true

/-! ### Trains and stores (R32, R33, R99, R106, R116, R117) -/

/-- R106: a RUNNING train's setpoint lies within its TP_MIN..TP_MAX, and every other train's is 0 kW. -/
def SetpointLaw (s : State) : Prop :=
  ∀ t : TrainIx,
    if (s.train t).state = .running then
      (paramsOf s t).tpMin ≤ (s.train t).setpoint ∧ (s.train t).setpoint ≤ (paramsOf s t).tpMax
    else (s.train t).setpoint = 0

/-- R106: the two sides never carry power together. -/
def OneSideAtPower (s : State) : Prop := sideAtZero s .charge = true ∨ sideAtZero s .discharge = true

/-- R32: no store holds trains of both sides. -/
def StoreSeparation (s : State) : Prop :=
  ∀ i : StoreIx, (s.store i).holds .charge = false ∨ (s.store i).holds .discharge = false

/-- R30, R32: only RUNNING trains are on a store, each on one store and once, and none on an ISOLATED store. -/
def StoreListLaw (s : State) : Prop :=
  (∀ i : StoreIx, ∀ t ∈ (s.store i).trains, (s.train t).state = .running)
    ∧ (StoreIx.all.flatMap fun i => (s.store i).trains).Nodup
    ∧ ∀ i : StoreIx, (s.store i).isolated = true → (s.store i).trains = []

/-- R33: the content of every store lies between 0 and its capacity. -/
def ContentLaw (s : State) : Prop := ∀ i : StoreIx, (s.store i).contentKj ≤ capacityKj s i

/-- R106, R171, R174: the plant as the sequencer keeps it: setpoints in their limits, one side at power, no train up before the
limits are locked, and TP_MIN below TP_MAX once they are. -/
def PlantLaw (s : State) : Prop :=
  SetpointLaw s ∧ OneSideAtPower s ∧ (s.locked = true ↔ s.mode ≠ .commissioning)
    ∧ (s.mode = .commissioning → ∀ t : TrainIx, (s.train t).state.stoppable = false)
    ∧ (s.locked = true → ∀ t : TrainIx, (paramsOf s t).tpMin < (paramsOf s t).tpMax)

/-- R117: in SAFE no train is STARTING, READY or RUNNING. -/
def SafeLaw (s : State) : Prop := s.mode = .safe → ∀ t : TrainIx, (s.train t).state.stoppable = false

/-! ### The limits record and the modes (R171, R172, R174) -/

/-- R171: every parameter holds a value of its range. -/
def LimitsLaw (s : State) : Prop := ∀ p : Param, p.inRange (s.limits.get p) = true

/-- R174: the record is locked exactly outside COMMISSIONING, the cross-checks then pass, and the account is BASED and the clock
RUNNING. -/
def LockLaw (s : State) : Prop :=
  (s.locked = true ↔ s.mode ≠ .commissioning)
    ∧ (s.locked = true → failedCheck s.limits = none ∧ s.account.basis = .based ∧ s.clock.running = true)

/-- R48, R106, R137: in COMMISSIONING the table is empty, no activation is in hand and no train is STARTING, READY or RUNNING. -/
def CommissioningLaw (s : State) : Prop :=
  s.mode = .commissioning →
    s.table.entries = [] ∧ s.orders.up.state = .idle ∧ s.orders.down.state = .idle
      ∧ ∀ t : TrainIx, (s.train t).state.stoppable = false

/-! ### The account (R2, R16) -/

/-- R2, R16: mass, pressures and temperature lie in their ranges. -/
def AccountLaw (s : State) : Prop :=
  s.account.mass ≤ 100000000 ∧ s.account.pCalc ≤ 20000 ∧ s.account.pMeas ≤ 20000
    ∧ 2500 ≤ s.account.tMeas ∧ s.account.tMeas ≤ 3500

/-- R7: STALE is shown exactly while no reading has been seen or the age has reached READ_STALE. -/
def StaleLaw (s : State) : Prop :=
  s.locked = true → (s.account.stale = true ↔ s.account.readingSeen = false ∨ s.limits.readStale ≤ s.account.readingAge)

/-! ### The table (R46, R47) -/

/-- R47: at most 128 records, no two with the same id, every id in 1..65,535. -/
def TableLaw (s : State) : Prop :=
  s.table.entries.length ≤ 128 ∧ (s.table.entries.map (·.id)).Nodup
    ∧ (∀ e ∈ s.table.entries, 1 ≤ e.id ∧ e.id ≤ 65535) ∧ 1 ≤ s.table.nextId ∧ s.table.nextId ≤ 65535

/-- R51, R52: an ADMIT in flight has a slot to go to. -/
def RoomLaw (s : State) : Prop := s.port.inFlight = some .admitEntry → s.table.entries.length ≤ 127

/-- R50: no record is younger than the last admission. -/
def SeqLaw (s : State) : Prop := ∀ e ∈ s.table.entries, e.seq ≤ s.table.lastSeq

/-- R46: the ranges of a record's fields, and its last interval inside the 32-bit numbers. -/
def Entry.inRange (e : Entry) : Prop :=
  1 ≤ e.span ∧ e.span ≤ 96 ∧ 1 ≤ e.power ∧ e.power ≤ 500000 ∧ -1000000 ≤ e.price ∧ e.price ≤ 1000000
    ∧ e.reference ≤ 65535 ∧ 1 ≤ e.seq ∧ e.seq ≤ 4294967295 ∧ e.last ≤ 4294967295

/-- R46: every record's fields lie in their ranges, and last_seq in its own. -/
def EntryLaw (s : State) : Prop := (∀ e ∈ s.table.entries, e.inRange) ∧ s.table.lastSeq ≤ 4294967295

/-- R47: the index is in ascending order of the key (first, seq). -/
def IndexLaw (s : State) : Prop := s.table.entries.Pairwise fun a b => keyBefore a b = true

/-- R65, R68: with n the interval the table stands in and now the current one, an entry not yet ACTIVE lies ahead of n (or, where
the table's response to the wrap of the interval number is due, of now) and has been credited nothing; an ACTIVE one covers n, and an
energy entry among them has been credited at most its power in the intervals before n since its first; and a closed energy entry at
most its power over its span. -/
def Entry.creditedWithin (e : Entry) (n now lInt : Nat) : Prop :=
  (e.status.isOpen = true → (n < e.first ∨ now < n ∧ now < e.first) ∧ e.delivered = 0 ∧ e.shortCount = 0)
    ∧ (e.status = .active → e.first ≤ n ∧ n ≤ e.last ∧ e.shortCount ≤ n - e.first)
    ∧ (e.status = .active → e.kind.reserveDir = none → e.delivered ≤ e.power * (n - e.first) * lInt / 3600)
    ∧ (e.status.isClosed = true → e.shortCount ≤ e.span)
    ∧ (e.status.isClosed = true → e.kind.reserveDir = none → e.delivered ≤ e.power * e.span * lInt / 3600)

/-- What is due to a boundary is due to the one that began the current interval, and no response is due twice (log 24). -/
def DueLaw (s : State) : Prop :=
  (∀ b p, .boundary b p ∈ s.due → b.begun = s.clock.n ∧ b.begun = nextInterval b.ended) ∧ (s.due.map Due.part).Nodup

def CreditLaw (s : State) : Prop := ∀ e ∈ s.table.entries, e.creditedWithin (intervalOf .tableBoundary s) s.clock.n s.limits.lInt

/-! ### Activations (R153, R155) -/

/-- R155: at most one activation record is ACTIVE, and no level is above 100. -/
def ActivationLaw (s : State) : Prop :=
  ¬ (s.orders.up.state = .active ∧ s.orders.down.state = .active) ∧ s.orders.up.level ≤ 100 ∧ s.orders.down.level ≤ 100

/-- R149: a COLLECTING assembler holds one to four bytes, the first of them SYNC. -/
def AssemblerLaw (s : State) : Prop :=
  match s.orders.assembler with
  | .hunting => True
  | .collecting held => 1 ≤ held.length ∧ held.length ≤ 4 ∧ held.head? = some 0xC3#8

/-! ### The projection and the port (R76, R91, R183, R192) -/

/-- R75, R76: there are 192 rows, a full walk runs exactly while the state is STALE, and a VALID state has a walk basis. -/
def WalkLaw (s : State) : Prop :=
  s.proj.rows.length = 192 ∧ (s.proj.walk.isSome = true ↔ s.proj.state = .stale)
    ∧ (s.proj.state = .valid → s.proj.walkBasis.isSome = true) ∧ s.proj.restarts ≤ 4

/-- R79, R88: every open record of the table is among the entries of the walk that runs, as one that may be excluded. -/
def WalkHoldsTable (s : State) : Prop :=
  ∀ w, s.proj.walk = some w → ∀ e ∈ s.table.entries, e.status.isOpen = true →
    ∃ x ∈ w.entries, x.id = e.id ∧ x.seq = e.seq ∧ x.first = e.first ∧ x.span = e.span ∧ x.status.isOpen = true

/-- R91, R184: a trial is in hand exactly while a request is in flight, for a candidate of its kind, and one that is RUNNING
works on a VALID projection. -/
def TrialLaw (s : State) : Prop :=
  match s.proj.trial, s.port.inFlight with
  | .none, none => s.proj.restarts = 0
  | .waiting c, some f | .running c _, some f =>
    (c.amends = true ↔ f ≠ .admitEntry) ∧ ((∃ c' l, s.proj.trial = .running c' l) → s.proj.state = .valid)
  | .none, some _ | .waiting _, none | .running _ _, none => False

/-- R183, R184: a reply and a request in flight are never there together. -/
def ReplyLaw (s : State) : Prop := ¬ (busy s = true ∧ replyWaiting s = true)

/-- R192: the cursor stays inside the table. -/
def CursorLaw (s : State) : Prop :=
  let c := s.port.cursor
  c.currentRow + c.countLeft ≤ 192 ∧ c.baseRow + c.countBase ≤ 192 ∧ c.countLeft ≤ c.countBase

/-- R189: a level notice is pending by its condition alone: none is latched. -/
def LatchedLaw (s : State) : Prop := s.port.latched &&& 0xF000#16 = 0

/-- What the port and the engine keep together. -/
def PortLaw (s : State) : Prop :=
  WalkLaw s ∧ WalkHoldsTable s ∧ TrialLaw s ∧ ReplyLaw s ∧ CursorLaw s ∧ LatchedLaw s

/-! ### The ledger (R65) -/

/-- The candidate of a trial in hand. -/
def Trial.candidate? : Trial → Option Candidate
  | .none => Option.none
  | .waiting c | .running c _ => some c

/-- R51, R52: the candidate of an ADMIT is an entry in range, not yet credited. -/
def Candidate.isFresh (c : Candidate) : Prop :=
  1 ≤ c.entry.span ∧ c.entry.span ≤ 96 ∧ 1 ≤ c.entry.power ∧ c.entry.power ≤ 500000 ∧ -1000000 ≤ c.entry.price
    ∧ c.entry.price ≤ 1000000 ∧ c.entry.reference ≤ 65535 ∧ c.entry.last ≤ 4294967295
    ∧ c.entry.status = .admitted ∧ c.entry.delivered = 0 ∧ c.entry.shortCount = 0

/-- R54: the values an AMEND in flight names are in range. -/
def InFlight.inRange : InFlight → Prop
  | .admitEntry => True
  | .amend _ _ power price reference =>
    1 ≤ power ∧ power ≤ 500000 ∧ (∀ p ∈ price, -1000000 ≤ p ∧ p ≤ 1000000) ∧ ∀ r ∈ reference, r ≤ 65535

/-- What makes the bound of R65 hold from one step to the next: records and limits in range, no record before the limits are locked,
a served fraction of at most 1,000 ‰, a candidate that enters the table uncredited, and the responses that are due (log 24). -/
def LedgerLaw (s : State) : Prop :=
  EntryLaw s ∧ CreditLaw s ∧ DueLaw s ∧ LimitsLaw s ∧ TrialLaw s ∧ (s.locked = true ↔ s.mode ≠ .commissioning)
    ∧ (s.mode = .commissioning → s.table.entries = [] ∧ s.port.inFlight = none)
    ∧ s.dispatch.closing.fraction ≤ 1000
    ∧ (∀ c, s.proj.trial.candidate? = some c → c.amends = false → c.isFresh)
    ∧ ∀ f, s.port.inFlight = some f → f.inRange

/-! ### Words the claims use -/

/-- Every response but one: with these put off, an event shows what the one block makes of it (log 24). -/
def othersThan (p : Part) : List Part := (secondParts ++ boundaryParts).filter (· ≠ p)

/-- ts is the shortest leading run of the ranked trains whose capacities sum to kw, or all of them if none suffices. -/
def LeadingRun (cap : TrainIx → Nat) (ranked : List TrainIx) (kw : Nat) (ts : List TrainIx) : Prop :=
  ∃ k, k ≤ ranked.length ∧ ts = ranked.take k ∧ (kw ≤ sumOver cap ts ∨ ts = ranked)
    ∧ ∀ j, j < k → sumOver cap (ranked.take j) < kw

/-- R138, R141: ts is the shortest leading run, in rank order, of the side's available trains whose TP_MAX sum to kw, or all of them
if none suffices. -/
def ShortestRun (s : State) (side : Side) (kw : Nat) (ts : List TrainIx) : Prop :=
  LeadingRun (tpMax s) (byRank (fun x => (s.train x).rank) (side.trains.filter (availableNow s))) kw ts

/-- A notice is latched. -/
abbrev Latched (n : Notice) (s : State) : Prop := s.port.latched &&& n.bit = n.bit

/-- The state holds the reply of a request that has completed (R187). -/
abbrev Answered (code : Byte) (r : Result) (payload : List Byte) (s : State) : Prop :=
  s.port.reply = replyFrame code r payload ∧ s.port.inFlight = none

/-- A command is a write transaction on the port (R184 to R186). -/
def isFrame : Instr → Bool
  | .frameWrittenWhileBusy | .frameFailingChecks _ | .unknownRequest _ _ => true
  | i => i.request?.isSome

/-- The command is answered with a result, an empty payload and no other effect than a request in good order has. -/
def Refuses (i : Instr) (s : State) (code : Byte) (r : Result) : Prop := exec i s = .next (answer code r [] s.accepted)

/-- R153: an activation record after a release with a reason. -/
def Activation.releasedBy (why : ReleaseReason) (a : Activation) : Activation :=
  match a.state with
  | .idle => a
  | .confirming => { a with state := .idle, confirmLeft := 0 }
  | .active => { a with state := .idle, holdLeft := 0, lastRelease := why }

/-- R51 step 1: every argument of an ADMIT is in range and its entry lies within rows GATE_LEAD to 191 and the 32-bit numbers
(log 11). -/
abbrev AdmitInRange (s : State) (a : AdmitArgs) : Prop :=
  a.kind.toNat < 4 ∧ 1 ≤ a.span.toNat ∧ a.span.toNat ≤ 96 ∧ 1 ≤ a.power.toNat ∧ a.power.toNat ≤ 500000
    ∧ -1000000 ≤ a.price.toInt ∧ a.price.toInt ≤ 1000000 ∧ s.clock.n + s.limits.gateLead ≤ a.first.toNat
    ∧ a.first.toNat + a.span.toNat ≤ s.clock.n + 192 ∧ a.first.toNat + a.span.toNat ≤ 4294967296

/-- R54 step 1, R201: an AMEND names a field, no other bit, and every value it names is in range. -/
abbrev AmendInRange (a : AmendArgs) : Prop :=
  1 ≤ a.fields.toNat ∧ a.fields.toNat ≤ 7
    ∧ (a.fields.getLsbD 0 = true → 1 ≤ a.power.toNat ∧ a.power.toNat ≤ 500000)
    ∧ (a.fields.getLsbD 1 = true → -1000000 ≤ a.price.toInt ∧ a.price.toInt ≤ 1000000)

/-- R54: the power, price and reference an AMEND asks for, on an entry. -/
def amendPower (a : AmendArgs) (e : Entry) : Nat := if a.fields.getLsbD 0 then a.power.toNat else e.power
def amendPrice (a : AmendArgs) (e : Entry) : Int := if a.fields.getLsbD 1 then a.price.toInt else e.price
def amendReference (a : AmendArgs) (e : Entry) : Nat := if a.fields.getLsbD 2 then a.reference.toNat else e.reference

/-- R52, R54, R55, R57: the gate of an entry has closed. -/
abbrev PastGate (s : State) (e : Entry) : Prop := e.first < s.clock.n + s.limits.gateLead

/-! ### The stores, one train or one store at a time -/

/-- R leads from b to c through the members of a list, one after another. -/
def Through {α β : Type} (R : α → β → β → Prop) : List α → β → β → Prop
  | [], b, c => c = b
  | a :: as, b, c => ∃ u, R a b u ∧ Through R as u c

/-- Of the stores that qualify, i has the largest figure, and the lowest index among equals (R31, R34, R36). -/
def Picks (figure : StoreIx → Nat) (qualifies : StoreIx → Prop) (i : StoreIx) : Prop :=
  qualifies i
    ∧ ∀ j, qualifies j → figure j < figure i ∨ figure j = figure i ∧ StoreIx.all.idxOf i ≤ StoreIx.all.idxOf j

/-- R31, R34, R36: a store is AVAILABLE, or in the state of a side's own trains. -/
def OpenTo (s : State) (side : Side) (i : StoreIx) : Prop :=
  (s.store i).state = .available ∨ (s.store i).state = if side = .charge then .charging else .discharging

/-- R31: a train is given the open store with the most room (a compressor) or the most content (an expander), at the end of its list;
with none open it is on no store. -/
def Placed (x : TrainIx) (s s' : State) : Prop :=
  ((∀ i, ¬ OpenTo s x.side i) → s' = s)
    ∧ ∀ i, Picks (fun i => if x.side = .charge then roomKj s i else (s.store i).contentKj) (OpenTo s x.side) i →
      s' = s.setStore i { s.store i with trains := (s.store i).trains ++ [x] }

/-- R34, R36: the trains of store i go to the end of store j's list, with kj of heat. -/
def MovesList (i j : StoreIx) (kj : Nat) (s s' : State) : Prop :=
  s'.store i = { s.store i with trains := [] }
    ∧ s'.store j =
      { s.store j with trains := (s.store j).trains ++ (s.store i).trains, contentKj := (s.store j).contentKj + kj }
    ∧ (∀ k, k ≠ i → k ≠ j → s'.store k = s.store k) ∧ s'.heat.summary = s.heat.summary ∧ Touches [.heat] s s'

/-- R34, R35: a store that is full and holds compressors is handled, with its overflow of the second. They move to the other open store
with the most room, which takes of the overflow what its room allows; the rest, or with no such store the whole, is added to the heat
rejected. -/
def FullHandled (overflow : StoreIx → Nat) (i : StoreIx) (a b : State × Nat) : Prop :=
  let s := a.1
  let handled := capacityKj s i ≤ (s.store i).contentKj ∧ ∃ x ∈ (s.store i).trains, x.side = .charge
  let target := Picks (roomKj s) fun j => j ≠ i ∧ 0 < roomKj s j ∧ OpenTo s .charge j
  (¬ handled → b = a)
    ∧ (handled → (∀ j, ¬ target j) → b = (s, a.2 + overflow i))
    ∧ ∀ j, handled → target j →
      let taken := min (roomKj s j) (overflow i)
      MovesList i j taken s b.1 ∧ b.2 = a.2 + (overflow i - taken)

/-- R36: a store that holds expanders is handled. Below LOW_MARK they move to the other open store with the most content above it; with
none such, and the store empty, to the one with the most content above 0. -/
def LowHandled (i : StoreIx) (s s' : State) : Prop :=
  let mark := s.limits.lowMark * 1000
  let held := (s.store i).contentKj
  let holds := ∃ x ∈ (s.store i).trains, x.side = .discharge
  let above := fun kj : Nat =>
    Picks (fun j => (s.store j).contentKj) fun j => j ≠ i ∧ kj < (s.store j).contentKj ∧ OpenTo s .discharge j
  let target := fun j => held < mark ∧ above mark j ∨ ¬ (held < mark ∧ ∃ k, above mark k) ∧ held = 0 ∧ above 0 j
  (∀ j, holds → target j → MovesList i j 0 s s') ∧ (¬ holds ∨ (∀ j, ¬ target j) → s' = s)

/-- R38 step 4: a RUNNING train on no store is given one as at loading. -/
def PlacedLate (x : TrainIx) (s s' : State) : Prop :=
  let homeless := (s.train x).state = .running ∧ ∀ i, x ∉ (s.store i).trains
  (homeless → Placed x s s') ∧ (¬ homeless → s' = s)

/-! ### Projection rows and the demotion loop -/

/-- R81 to R85: the figures and the verdict of a row, from its interval, its starting mass and pressure, and its starting heat. -/
def RowFollows (w : WalkInputs) (included : List Entry) (heat : Nat) (r : Row) : Prop :=
  let l := w.limits
  let sum := fun k : EntryKind => ((included.filter fun e =>
    decide (e.kind = k) && e.covers r.interval).map (·.power)).sum
  let tp := fun x : TrainIx => (l.train.get x).tpMax
  let state := fun x : TrainIx => (w.trains.get x).state
  let available := fun d : Side => d.trains.filter fun x =>
    !(decide (state x = .outOfService) || decide (state x = .tripped) || decide (state x = .lockedOut))
  let start := fun x : TrainIx =>
    if (w.trains.get x).startClass = .hot then (l.train.get x).startHot else (l.train.get x).startCold
  let quick := fun (d : Side) (committed : List TrainIx) => sumOver tp <| (available d).filter fun x =>
    decide (x ∈ committed) || decide (state x = .ready) || decide (state x = .running) || decide (start x ≤ l.tFa)
  let mass := fun net : Int => min 100000000 <|
    if net < 0 then r.massStart + net.natAbs * l.lInt / workC l r.pStart
    else if 0 < net then r.massStart - ceilDiv (net.natAbs * l.lInt) (workE l r.pStart)
    else r.massStart
  let p := fun net : Int => pressureFromMass l (mass net) w.tdk
  let heatEnd := fun net : Int =>
    let h : Int :=
      if net < 0 then heat + ((net.natAbs * l.lInt * l.hC / 1000000 : Nat) : Int)
      else if 0 < net then heat - ((ceilDiv (net.natAbs * l.lInt * l.hE) 1000000 : Nat) : Int)
      else heat
    if 0 < h then h - ((ceilDiv (h.toNat * l.loss) 100000 : Nat) : Int) else h
  let net := r.netKw
  let size : Int := net.natAbs
  let up : Int := if net < 0 then min (net + r.resUpKw) 0 else net + r.resUpKw
  let down : Int := if 0 < net then max (net - r.resDnKw) 0 else net - r.resDnKw
  let full : Int := w.poolCapacity
  let rate := fun x : Int =>
    (decide (l.dpMax < ((p x : Int) - r.pStart).natAbs), Verdict.rate (if r.pStart < p x then .rising else .falling))
  let tests : List (Bool × Verdict) :=
    [(decide (net < 0 ∧ r.capC < net.natAbs ∨ 0 < net ∧ r.capE < net.natAbs), .capability),
     (decide ((if net < 0 then size else (r.quickE : Int) - net) < r.resUpKw), .headroom .up),
     (decide ((if 0 < net then size else (r.quickC : Int) - size) < r.resDnKw), .headroom .down),
     (decide (l.pMax < p net ∨ l.pMax < p down), .pressureHigh),
     (decide (p net < l.pMin ∨ p up < l.pMin), .pressureLow),
     rate net, rate up, rate down,
     (decide (full < heatEnd net ∨ full < heatEnd down), .heatFull),
     (decide (heatEnd net < 0 ∨ heatEnd up < 0), .heatShort)]
  r.chargeKw = sum .energyCharge ∧ r.dischargeKw = sum .energyDischarge ∧ net = (r.dischargeKw : Int) - r.chargeKw
    ∧ r.resUpKw = sum .reserveUp ∧ r.resDnKw = sum .reserveDown
    ∧ r.capC = sumOver tp (available .charge) ∧ r.capE = sumOver tp (available .discharge)
    ∧ (∃ committed, (net = 0 → committed = [])
      ∧ (∀ d, (net < 0 ∧ d = Side.charge ∨ 0 < net ∧ d = Side.discharge) →
        LeadingRun tp (byRank (fun x => (w.trains.get x).rank) (available d)) net.natAbs committed)
      ∧ r.quickC = quick .charge committed ∧ r.quickE = quick .discharge committed)
    ∧ r.massEnd = mass net ∧ r.pEnd = p net ∧ r.heatEnd = heatEnd net
    ∧ r.verdict = ((tests.find? (·.1)).map (·.2)).getD .ok

/-- R75, R79, R80: there are 192 rows, and from position lo on each follows the rules, row 0 from the walk's inputs and a later row from
the end of the row before it. A row's interval number wraps as the clock's does (log 13). -/
def RowsFollow (w : WalkInputs) (included : List Entry) (lo : Nat) (rows : List Row) : Prop :=
  rows.length = 192 ∧ ∀ k r, lo ≤ k → rows[k]? = some r →
    r.interval = (w.base + k) % 4294967296
      ∧ (k = 0 → r.massStart = w.mass ∧ r.pStart = pressureFromMass w.limits w.mass w.tdk
        ∧ RowFollows w included w.heat r)
      ∧ ∀ q, 0 < k → rows[k - 1]? = some q →
        r.massStart = q.massEnd ∧ r.pStart = q.pEnd ∧ RowFollows w included (clampInt 0 w.poolCapacity q.heatEnd) r

/-- R87: the kinds that feed a row's verdict. -/
def feedingKinds (r : Row) : List EntryKind :=
  match r.verdict with
  | .ok => []
  | .pressureHigh | .heatFull | .rate .rising => [.energyCharge, .reserveDown]
  | .pressureLow | .heatShort | .rate .falling => [.energyDischarge, .reserveUp]
  | .capability => if r.netKw < 0 then [.energyCharge] else if 0 < r.netKw then [.energyDischarge] else []
  | .headroom .up => [.reserveUp]
  | .headroom .down => [.reserveDown]

/-- R86, R87: an entry may be excluded for a row: included, ADMITTED or AT_RISK, covering the row and feeding its verdict; and not
covering row 0 (the model's reading of R88, log 6). -/
def MayExclude (w : WalkInputs) (included : List Entry) (r : Row) (e : Entry) : Prop :=
  e ∈ included ∧ e.status.isOpen = true ∧ e.covers r.interval = true ∧ e.kind ∈ feedingKinds r ∧ e.covers w.base = false

/-- R86: row j is one that the search may stop at: not row 0, failing and unmarked. -/
def Searched (marks : List Nat) (rows : List Row) (j : Nat) (r : Row) : Prop :=
  1 ≤ j ∧ rows[j]? = some r ∧ r.verdict ≠ .ok ∧ j ∉ marks

/-- R86: the passes of the demotion loop, from the entries included and the rows marked. Each excluded entry, with its risk, is taken
out for the lowest row found that has a candidate: the one of the lowest price, and of the highest seq among equal prices; the rows found
below it have none and are marked. The last pass finds no candidate and leaves the rows, the entries still included and the marks. -/
def DemotionRun (w : WalkInputs) : List (Entry × Risk) → List Entry → List Nat → List Entry → List Nat → List Row → Prop
  | [], included, marks, included', marks', rows =>
    included' = included ∧ RowsFollow w included 0 rows
      ∧ (∀ j r, Searched marks rows j r → ∀ e, ¬ MayExclude w included r e)
      ∧ ∀ j, j ∈ marks' ↔ j ∈ marks ∨ ∃ r, Searched marks rows j r
  | (e, risk) :: more, included, marks, included', marks', rows =>
    ∃ pass k r marked, RowsFollow w included 0 pass ∧ Searched marks pass k r ∧ MayExclude w included r e
      ∧ risk = ⟨r.verdict, r.interval⟩
      ∧ (∀ f, MayExclude w included r f → e.price < f.price ∨ e.price = f.price ∧ f.seq ≤ e.seq)
      ∧ (∀ j q, j < k → Searched marks pass j q → ∀ f, ¬ MayExclude w included q f)
      ∧ (∀ j, j ∈ marked ↔ j ∈ marks ∨ j < k ∧ ∃ q, Searched marks pass j q)
      ∧ DemotionRun w more (included.erase e) marked included' marks' rows

end Sys2Proof.Machine
end

