-- ==== Sys2Proof/WellFormed.lean ====
section
/-! DEFINITION. Which commands are well formed: a request's payload has the length its layout gives (R200), its flag and
enumerated bytes are codes of their tables (R196), the unused bits of its field set are 0 (R201), an unknown request's CODE names
no request (R186), and an order of responses, and a list of those put off, name each response at most once. A command that is not well formed still runs: the
owner refuses it as R196, R200 and R201 say. -/

namespace Sys2Proof

/-- A flag byte is 0 or 1 (R196). -/
def isFlag (b : Byte) : Bool := decide (b.toNat ≤ 1)

/-- An enumerated byte is below the number of its codes (R196). -/
def isCode (n : Nat) (b : Byte) : Bool := decide (b.toNat < n)

/-- Whether the fields of a request's payload are codes and flags of their tables. -/
def Instr.fieldsOk : Instr → Bool
  | .excursionClear _ side => isCode 3 side
  | .storeService _ _ d | .trainService _ _ d => isCode 2 d
  | .admitEntry _ a => isCode 4 a.kind
  | .amend _ a => decide (a.fields.toNat < 8)
  | .readProjection _ _ _ reload view => isFlag reload && isCode 2 view
  | .trainPriority h side l => isCode 2 side && decide (h.len = l.length + 1)
  | .heaterAssign _ _ x => isCode 4 x
  | .heaterTimer _ t _ _ => isCode 2 t
  | .patternWrite _ a =>
    isFlag a.enabled && isCode 5 a.action && isCode 3 a.releaseMode && isFlag a.confirm
  | .orderRelease _ d => isCode 3 d
  | .supervisionSet _ a => isFlag a.window && isFlag a.anyRequest && isFlag a.reading && isCode 2 a.escalation
  | .unknownRequest _ code => (Request.ofCode code).isNone
  | .secondEvent r | .boundary r | .syncPulse r => decide r.order.Nodup && decide r.later.Nodup
  | _ => true

/-- The well-formed commands. -/
def Instr.wellFormed (i : Instr) : Bool :=
  (match i.request? with
    | none => true
    | some (r, h) => r.lengthOk h.len) && i.fieldsOk

end Sys2Proof
end

