-- ==== Sys2Proof/Certificates/Slice0/Obligations.lean ====
section
/-! DEFINITION. The statements about the model. In each, t is the state a command leaves; `s.accepted` is the state in which an
owner hears of a request: s with the reply buffer emptied, OVERRUN clear and the ANY_REQUEST source handed the frame. An equation
with the whole next state says at once what a command changes and that it changes nothing else. -/

open Sys2Proof Sys2Proof.Machine

/-! ### The queue -/

/-- Spec 95: each command is one whole step. The command at the front of the queue runs on the state with the queue's rest. -/
def Obligations.StepRunsFrontCommand : Prop :=
  ∀ (c : Instr) (rest : List Instr) (s : State), step (s.withPending (c :: rest)) = exec c (s.withPending rest)

/-- The model's choices (logs 10, 24), for R69 and R90, by which a walk or a request may fall between two blocks' responses to one
boundary. With no command waiting a step makes the oldest response that is due, and idles where none is or while power-on reset is
held. A boundary first makes what is due to an earlier one, and a second what is due to earlier seconds. A boundary whose responses
are all put off moves the clock alone; making them then, one after another, leaves what a boundary with none put off leaves. -/
def Obligations.StepIdlesOnEmptyQueue : Prop :=
  ∀ s : State,
    (s.pending = [] → inReset s = true ∨ s.due = [] → step s = .next s)
      ∧ (∀ d ds, s.pending = [] → inReset s = false → s.due = d :: ds → step s = .next (respondDue d (s.withDue ds)))
      ∧ (∀ order later, exec (.boundary ⟨order, later⟩) s = if inReset s = false ∧ s.clock.running = true then
          exec (.boundary ⟨order, later⟩) (settle true s) else .next s)
      ∧ (∀ order later, inReset s = false →
        (s.clock.running = true → s.clock.s + 1 < s.limits.lInt) →
        exec (.secondEvent ⟨order, later⟩) s = exec (.secondEvent ⟨order, later⟩) (settle false s))
      ∧ ∀ order, inReset s = false → s.clock.running = true → s.due = [] →
        ∃ t, exec (.boundary ⟨order, boundaryParts⟩) s = .next t
          ∧ t.due.map Due.part = boundaryOrder order ∧ (∀ d ∈ t.due, d.toBoundary = true)
          ∧ Touches [.clock, .due] s t
          ∧ exec (.boundary ⟨order, []⟩) s = .next (respondAll t.due (t.withDue []))

/-- Every command of the table completes in every state, and leaves the commands that wait behind it alone. That POWER_ON_RESET leaves
them too is the model's choice (log 12), and so is that an event without its cause completes as a change of nothing (log 8). -/
def Obligations.EveryCommandCompletes : Prop :=
  ∀ (c : Instr) (s : State), ∃ t, exec c s = .next t ∧ t.pending = s.pending

/-! ### Frames -/

/-- R185, R196 to R198, R204: the frame of every well-formed request is read back as that request, with every field at every value;
and frames written out byte by byte are the requests they stand for. -/
def Obligations.RequestFrameRoundTrip : Prop :=
  (∀ (i : Instr) (bs : List Byte), i.wellFormed = true → encodeFrame i = some bs → decodeFrame bs = i)
    ∧ decodeFrame [0x02, 0x01, 0x01, 0xC4] = .identify ⟨.plant, 0⟩
    ∧ decodeFrame [0x04, 0x01, 0x30, 0x05, 0x00, 0x39] = .trainService ⟨.plant, 2⟩ 5 0
    ∧ decodeFrame [0x07, 0x01, 0x19, 0x02, 0x00, 0x01, 0x5F, 0x90, 0xC7] = .storeSet ⟨.plant, 5⟩ 2 90000
    ∧ decodeFrame [0x04, 0x02, 0x24, 0x12, 0x34, 0xBA] = .queryEntry ⟨.trading, 2⟩ 0x1234
    ∧ decodeFrame [0x02, 0x01, 0x7F, 0xB9] = .unknownRequest .plant 0x7F

/-- R185: a request's frame with one byte changed, whichever it is, is answered as BAD_FRAME. -/
def Obligations.OneWrongByteIsBadFrame : Prop :=
  ∀ (i : Instr) (bs : List Byte) (k : Nat) (b : Byte),
    i.wellFormed = true → encodeFrame i = some bs → k < bs.length → bs.getD k 0 ≠ b →
      ∃ check, decodeFrame (bs.set k b) = .frameFailingChecks check

/-! ### The port -/

/-- R184 to R186, R200: while BUSY a write transaction sets OVERRUN and changes nothing else. With BUSY clear, what the port itself
refuses, in its order: a frame that fails a check (no block hears of it, so supervision is not refreshed), a CODE that names no request,
a client that may not make the request, a payload of the wrong length. -/
def Obligations.FrameRefusedBeforeItsOwner : Prop :=
  ∀ s : State, inReset s = false →
    (∀ i : Instr, isFrame i = true → busy s = true → exec i s = .next (s.withPort { s.port with overrun := true }))
      ∧ (busy s = false → (∀ check, exec (.frameFailingChecks check) s = .next (answer 0 .badFrame [] (acceptFrame s)))
        ∧ (∀ client code, Request.ofCode code = none → Refuses (.unknownRequest client code) s code .unknownRequest)
        ∧ (∀ i r h, i.request? = some (r, h) → permitted r h.client = false → Refuses i s r.code .notPermitted)
        ∧ ∀ i r h, i.request? = some (r, h) → permitted r h.client = true → r.lengthOk h.len = false →
            Refuses i s r.code .badArgument)

/-- R190, R191: NOTICES reports the pending set, clears the latched notices it names and reports what is left; the mask requests
add and remove, but while the mode is SAFE the four notices of 0x3810 are kept. -/
def Obligations.NoticeRequestsAnswer : Prop :=
  ∀ (s : State) (h : Head) (set : Half),
    (InGoodOrder (.notices h set) s →
      exec (.notices h set) s = .next
        (answer 0x02 .ok
          (halfBytes (s.port.latched ||| levelNotices s) ++ halfBytes ((s.port.latched &&& ~~~set) ||| levelNotices s)
            ++ halfBytes s.port.mask)
          (s.accepted.withPort { s.accepted.port with latched := s.port.latched &&& ~~~set })))
      ∧ (InGoodOrder (.noticeMaskSet h set) s →
        exec (.noticeMaskSet h set) s = .next
          (answer 0x03 .ok (halfBytes (s.port.mask ||| set))
            (s.accepted.withPort { s.accepted.port with mask := s.port.mask ||| set })))
      ∧ (InGoodOrder (.noticeMaskClear h set) s →
        exec (.noticeMaskClear h set) s = .next
          (let mask := if s.mode = .safe then s.port.mask &&& (~~~set ||| 0x3810#16) else s.port.mask &&& ~~~set;
           answer 0x04 .ok (halfBytes mask) (s.accepted.withPort { s.accepted.port with mask := mask })))

/-- R1, R189: ATTN is asserted exactly while some notice is both pending and in the mask, and released while power-on reset is held; a
latched notice is pending while it is latched, a level notice exactly while its condition holds (where no level notice is latched, which
every step keeps). R106: PERMIT of a train is asserted exactly while it is STARTING, READY, RUNNING or STOPPING. R183, R197: the seven
fields of the status byte, at their bits. R182, R187: MISO carries the status byte first; after it a read transaction carries the reply
buffer from its first byte and then 0x00, and a transaction that is neither a read nor a write 0x00. After the status byte of a write the
spec states no value, and none is claimed here (log 23); status byte and buffer are those of one state (logs 20, 23). -/
def Obligations.AttnFollowsPendingAndMask : Prop :=
  ∀ s : State,
    (attn s = true ↔
        inReset s = false ∧ ∃ n : Notice, pendingNotices s &&& n.bit = n.bit ∧ s.port.mask &&& n.bit = n.bit)
      ∧ (LatchedLaw s →
        (pendingNotices s &&& Notice.readingStale.bit ≠ 0 ↔ s.account.stale = true)
          ∧ (pendingNotices s &&& Notice.excursion.bit ≠ 0 ↔ s.account.excHi ≠ .clear ∨ s.account.excLo ≠ .clear)
          ∧ (pendingNotices s &&& Notice.heatReject.bit ≠ 0 ↔ s.heat.summary.reject = true)
          ∧ (pendingNotices s &&& Notice.heatTaper.bit ≠ 0 ↔ s.heat.summary.taper = true))
      ∧ (∀ x, permit s x = true ↔
        inReset s = false ∧ ((s.train x).state = .starting ∨ (s.train x).state = .ready ∨ (s.train x).state = .running
          ∨ (s.train x).state = .stopping))
      ∧ ((statusByte s).getLsbD 7 = s.port.inFlight.isSome ∧ ((statusByte s).getLsbD 6 = true ↔ s.port.reply ≠ [])
        ∧ (statusByte s).getLsbD 5 = attn s ∧ (statusByte s).getLsbD 4 = s.port.overrun
        ∧ (statusByte s).extractLsb' 2 2
          = (match s.mode with | .commissioning => 0#2 | .normal => 1#2 | .hold => 2#2 | .safe => 3#2)
        ∧ (statusByte s).getLsbD 1 = s.locked ∧ ((statusByte s).getLsbD 0 = true ↔ s.proj.state = .valid))
      ∧ (inReset s = false →
        transactionOut s [] = [statusByte s]
          ∧ ∀ (command : Byte) (rest : List Byte), ∃ out,
            transactionOut s (command :: rest) = statusByte s :: out ∧ out.length = rest.length
              ∧ (command = 0x02 → ∀ k, k < rest.length → out[k]? = some (s.port.reply.getD k 0x00))
              ∧ (command ≠ 0x01 → command ≠ 0x02 → ∀ b ∈ out, b = 0x00))

/-- R194: what RESTART leaves at the port, the receiver, supervision and the engine, and that it leaves every other record. -/
def Obligations.RestartLeavesWhatItNames : Prop :=
  ∀ (s : State) (h : Head), InGoodOrder (.restart h) s →
    ∃ t, exec (.restart h) s = .next t
      ∧ t.port = { reply := replyFrame 0x05 .ok [], inFlight := none, overrun := false, latched := 0, mask := 0x2815,
                   cursor := Cursor.cleared }
      ∧ t.orders =
        { s.orders with
          assembler := .hunting, received := 0, unmatched := 0, discarded := 0
          up := s.orders.up.releasedBy .restart, down := s.orders.down.releasedBy .restart }
      ∧ t.supervision = { s.supervision with failures := 0, remaining := s.supervision.timeout }
      ∧ t.proj = (if s.proj.state = .unavailable then s.proj
          else { s.proj with state := .stale, walk := some (walkInputs s) })
      ∧ Touches [.port, .orders, .supervision, .proj] s t

/-- R192, R193: READ_PROJECTION is judged and sets the cursor; READ_NEXT reads a page of rows from it and moves it on, or finds it
spent. -/
def Obligations.ProjectionPagesFollowCursor : Prop :=
  ∀ (s : State) (h : Head),
    (∀ row count reload view, InGoodOrder (.readProjection h row count reload view) s →
      let inRange := row.toNat ≤ 191 ∧ 1 ≤ count.toNat ∧ count.toNat ≤ 192 ∧ row.toNat + count.toNat ≤ 192
        ∧ reload.toNat ≤ 1 ∧ view.toNat ≤ 1
      (¬ inRange → Refuses (.readProjection h row count reload view) s 0x29 .badArgument)
        ∧ (inRange → s.proj.state = .unavailable →
          Refuses (.readProjection h row count reload view) s 0x29 .unavailable)
        ∧ (inRange → s.proj.state ≠ .unavailable →
          exec (.readProjection h row count reload view) s = .next
            (answer 0x29 .ok (u8 s.proj.state.code ++ u32 s.proj.baseInterval ++ u32 s.proj.completed)
              (s.accepted.withPort
                { s.accepted.port with
                  cursor :=
                    { baseRow := row.toNat, currentRow := row.toNat, countBase := count.toNat, countLeft := count.toNat
                      reload := decide (reload.toNat = 1), view := if view.toNat = 0 then .summary else .full } }))))
      ∧ (InGoodOrder (.readNext h) s →
        let c := s.port.cursor
        let k := min c.countLeft (if c.view = .summary then 8 else 2)
        (c.countLeft = 0 → Refuses (.readNext h) s 0x2A .wrongState)
          ∧ (c.countLeft ≠ 0 →
            exec (.readNext h) s = .next
              (answer 0x2A .ok
                (((s.proj.rows.drop c.currentRow).take k).flatMap fun r =>
                  if c.view = .summary then summaryBytes r else fullBytes r)
                (s.accepted.withPort
                  { s.accepted.port with
                    cursor :=
                      if c.countLeft - k = 0 ∧ c.reload = true then
                        { c with currentRow := c.baseRow, countLeft := c.countBase }
                      else { c with currentRow := c.currentRow + k, countLeft := c.countLeft - k } }))))

/-! ### Power-on reset -/

/-- R1, R3, R29, R48, R76, R100, R127, R134, R150, R151, R153, R167, R171, R175, R183, R189, R192: POWER_ON_RESET puts every record at
its stated values, whatever the causes and the TRIP levels it comes with. While a cause holds it, PERMIT, HEAT and ATTN are released
and no other command is taken; once both have cleared, the records stand as written. The model's choices: the records already hold
these values while it is held (log 3), and the queue stays (log 12), and no
response is due then (log 24). -/
def Obligations.PowerOnResetPutsEveryRecord : Prop :=
  (∀ (pins : ResetPins) (lines : PerTrain Bool) (s : State), ∃ t, exec (.powerOnReset ⟨pins, lines⟩) s = .next t
    ∧ t.account =
      { basis := .unbased, mass := 0, pCalc := 0, pMeas := 0, tMeas := 2880, power := ⟨0, 0, 0, 0, 0, 0, 0⟩
        readingAge := 0, stale := true, clamped := false, readingSeen := false, eC := 0, eE := 0, excHi := .clear
        excLo := .clear, lastClose := ⟨0, 0, false⟩ }
    ∧ t.heat = { store := ⟨⟨false, 0, []⟩, ⟨false, 0, []⟩, ⟨false, 0, []⟩⟩, summary := ⟨0, 5400000, false, false, 0⟩ }
    ∧ t.table = { entries := [], nextId := 1, lastSeq := 0 }
    ∧ t.proj =
      { state := .unavailable, baseInterval := 0, walk := none, trial := .none, restarts := 0, completed := 0, passes := 0
        demoted := 0, recovered := 0, unresolvedCount := 0, firstUnresolved := none, rows := List.replicate 192 Row.blank
        walkBasis := none }
    ∧ (∀ x : TrainIx, t.train x =
      { state := if lines.get x then .tripped else .cooldown, setpoint := 0, startClass := .cold
        stateTimer := if lines.get x then 0 else if x.side = .charge then 900 else 1200
        runTime := 0, downSince := 86401, startsToday := 0, tripsToday := 0, rank := x.side.trains.idxOf x + 1
        heater := .off, warm := false, tripLine := lines.get x, startLimited := false, excursionStopped := false })
    ∧ t.trains.timerA = ⟨600, 60, 0⟩ ∧ t.trains.timerB = ⟨600, 60, 0⟩
    ∧ t.clock = { running := false, n := 0, s := 0, dayPos := 0, lastCapture := none }
    ∧ t.dispatch =
      { tSched := 0, actDir := none, actKw := 0, target := 0, limit := .none, dir := none, commit := [], need := []
        share := ⟨0, 0, 0, 0, 0, 0, 0⟩, hold := ⟨false, false, false, false, false, false, false⟩, schedKj := 0, delKj := 0
        closing := ⟨0, none, 0, 0, 1000⟩ }
    ∧ t.orders =
      { assembler := .hunting, received := 0, unmatched := 0, discarded := 0, patterns := Vector.replicate 8 Pattern.blank
        up := Activation.blank, down := Activation.blank }
    ∧ t.mode = .commissioning ∧ t.locked = false ∧ t.limits = Limits.default
    ∧ t.supervision =
      { timeout := 0, window := false, anyRequest := false, reading := false, escalation := .second, failures := 0
        remaining := 0 }
    ∧ t.port = { reply := [], inFlight := none, overrun := false, latched := 0, mask := 0x2815, cursor := Cursor.cleared }
    ∧ pendingNotices t = Notice.readingStale.bit ∧ t.por = pins ∧ t.due = [] ∧ t.freeCount = s.freeCount
    ∧ t.pending = s.pending)
    ∧ ∀ s : State, s.por.supplyLow = true ∨ s.por.nrst = true →
      attn s = false ∧ (∀ x, permit s x = false ∧ heatOutput s x = false)
        ∧ ∀ c, (∀ lines, c ≠ .powerOnReset lines) → exec c s = .next s

/-! ### The cavern account -/

/-- R4 to R6, R10, R21 to R23, R108, R116, R144, R177: POST_READING stores the clamped reading, bases an UNBASED account and hands on
its basis change, judges both excursion sides on the new pressure, stops the trains of a side that becomes ACTIVE, clears
EXCURSION_STOPPED on a side that becomes CLEAR, refreshes the timer as the READING source (or, as every request, the ANY_REQUEST
source), and answers with the seven setpoints. Every other record stands, and the projection of a BASED account too where no stop
changes a start class. In which order the trains of a side are stopped is log 22's. -/
def Obligations.PostReadingTakesReading : Prop :=
  ∀ (s : State) (h : Head) (r : ReadingArgs), InGoodOrder (.postReading h r) s →
    let p := clampInt 0 20000 r.pressure.toInt
    let k := clampInt 2500 3500 r.temperature.toInt
    let kw := fun x => clampInt 0 200000 (r.powers.get x).toInt
    let hi := highSide s.limits p s.account.excHi
    let lo := lowSide s.limits p s.account.excLo
    let old := fun x : TrainIx => excursionOf s.account x.side
    let new := fun x : TrainIx => if x.side = .charge then hi else lo
    let stops := fun x : TrainIx => decide (new x = .active) && decide (old x ≠ .active) && (s.train x).state.stoppable
    ∃ t, exec (.postReading h r) s = .next t
      ∧ t.account.pMeas = p ∧ t.account.tMeas = k ∧ (∀ x, t.account.power.get x = kw x)
      ∧ t.account.readingAge = 0 ∧ t.account.readingSeen = true ∧ t.account.stale = false
      ∧ (t.account.clamped = true ↔
        (p : Int) ≠ r.pressure.toInt ∨ (k : Int) ≠ r.temperature.toInt ∨ ∃ x, (kw x : Int) ≠ (r.powers.get x).toInt)
      ∧ t.account.basis = .based ∧ t.account.lastClose = s.account.lastClose
      ∧ (s.account.basis = .unbased →
        t.account.mass = massFromPressure s.limits p k
          ∧ t.account.pCalc = pressureFromMass s.limits (massFromPressure s.limits p k) k
          ∧ t.account.eC = 0 ∧ t.account.eE = 0
          ∧ (s.proj.state ≠ .unavailable ∨ s.clock.running = true →
            t.proj.state = .stale ∧ ∃ w, t.proj.walk = some w ∧ w.mass = t.account.mass ∧ w.tdk = k
              ∧ w.base = s.clock.n)
          ∧ (s.proj.state = .unavailable → s.clock.running = false → t.proj = s.proj))
      ∧ (s.account.basis = .based →
        t.account.mass = s.account.mass ∧ t.account.pCalc = s.account.pCalc ∧ t.account.eC = s.account.eC
          ∧ t.account.eE = s.account.eE
          ∧ ((∀ x, (t.train x).startClass = (s.train x).startClass) → t.proj = s.proj))
      ∧ t.account.excHi = hi ∧ t.account.excLo = lo
      ∧ (∀ x, stops x = true → t.train x =
        { s.train x with
          state := .stopping, stateTimer := (paramsOf s x).stopTime, setpoint := 0, downSince := 0, startClass := .hot
          warm := decide (x.side = .discharge ∧ (s.train x).heater ≠ Heater.off), excursionStopped := true })
      ∧ (∀ x, new x = .clear → old x ≠ .clear → t.train x = { s.train x with excursionStopped := false })
      ∧ (∀ x, stops x = false → ¬ (new x = .clear ∧ old x ≠ .clear) → t.train x = s.train x)
      ∧ t.trains.timerA = s.trains.timerA ∧ t.trains.timerB = s.trains.timerB
      ∧ (∀ i, t.store i = { s.store i with trains := (s.store i).trains.filter fun x => !stops x })
      ∧ t.heat.summary = s.heat.summary
      ∧ t.supervision =
        (if (s.supervision.reading = true ∨ s.supervision.anyRequest = true) ∧ s.supervision.window = false then
          { s.supervision with remaining := s.supervision.timeout } else s.supervision)
      ∧ t.port =
        { s.port with reply := replyFrame 0x10 .ok (setpointBytes t), inFlight := none, overrun := false }
      ∧ Touches [.account, .trains, .heat, .proj, .port, .supervision] s t

/-- R7, R9, R11, R101, R128, R176: a second, in whatever order the blocks respond (log 2), where it ends no interval: the reading ages
and is judged, a fresh reading's powers are metered, the clock counts if it runs, the heater cycles advance, and a supervision timer
counts down; R176, R178: one at its last second expires within this second, which counts a failure, raises MODE and moves the mode by
the escalation, into SAFE with what that stops, releases and masks. R9: where the account's response alone is made (log 24), the
powers of a fresh reading are metered, or the setpoints while STALE. R136, R137, R145, R161: where the dispatcher's response alone is
made, it forms its target from the ACTIVE entries and the ACTIVE activation, cuts it by the live limits in their order, and meters the
second, for itself and for the activation it took. -/
def Obligations.SecondCountsAndMeters : Prop :=
  (∀ (order : List Part) (s : State), inReset s = false → s.due = [] →
    (s.clock.running = true → s.clock.s + 1 < s.limits.lInt) →
    let age := min 65535 (s.account.readingAge + 1)
    let stale := !s.account.readingSeen || decide (s.limits.readStale ≤ age)
    ∃ t, exec (.secondEvent ⟨order, []⟩) s = .next t
      ∧ t.account.readingAge = age ∧ t.account.stale = stale
      ∧ (stale = false →
        t.account.eC = min 4294967295 (s.account.eC + sumOver s.account.power.get [.c0, .c1, .c2, .c3])
          ∧ t.account.eE = min 4294967295 (s.account.eE + sumOver s.account.power.get [.e0, .e1, .e2]))
      ∧ t.account.mass = s.account.mass ∧ t.account.basis = s.account.basis
      ∧ t.clock = (if s.clock.running then { s.clock with s := s.clock.s + 1 } else s.clock)
      ∧ t.trains.timerA = s.trains.timerA.advance ∧ t.trains.timerB = s.trains.timerB.advance
      ∧ (let runs := 0 < s.supervision.timeout ∧ (s.mode = .normal ∨ s.mode = .hold)
        let next := if s.mode = .normal ∧ s.supervision.escalation = .second then Mode.hold else Mode.safe
        (runs → 1 < s.supervision.remaining →
          t.supervision = { s.supervision with remaining := s.supervision.remaining - 1 } ∧ t.mode = s.mode)
          ∧ (runs → s.supervision.remaining = 1 →
            t.mode = next
              ∧ t.supervision =
                { s.supervision with
                  failures := min 255 (s.supervision.failures + 1)
                  remaining := if next = .hold then s.supervision.timeout else 0 }
              ∧ Latched .mode t
              ∧ (next = .hold → t.port.mask = s.port.mask)
              ∧ (next = .safe → t.port.mask = 0x3810#16 ∧ (∀ x, (t.train x).state.stoppable = false)
                ∧ t.orders.up.state = .idle ∧ t.orders.down.state = .idle))
          ∧ (¬ runs → t.supervision = s.supervision ∧ t.mode = s.mode))
      ∧ Touches [.account, .heat, .trains, .dispatch, .orders, .supervision, .mode, .clock, .proj, .port] s t)
    ∧ (∀ s : State, inReset s = false → s.due = [] →
      let age := min 65535 (s.account.readingAge + 1)
      let stale := !s.account.readingSeen || decide (s.limits.readStale ≤ age)
      let kw := fun x => if stale = true then (s.train x).setpoint else s.account.power.get x
      ∃ t, exec (.secondEvent ⟨[], (othersThan .accountSecond)⟩) s = .next t
        ∧ t.account =
          { s.account with
            readingAge := age, stale := stale
            eC := min 4294967295 (s.account.eC + sumOver kw [.c0, .c1, .c2, .c3])
            eE := min 4294967295 (s.account.eE + sumOver kw [.e0, .e1, .e2]) }
        ∧ Touches [.account, .clock, .due] s t)
    ∧ ∀ s : State, inReset s = false → s.due = [] → ActivationLaw s →
      let sched : Int := (activeSum s .energyDischarge : Int) - activeSum s .energyCharge
      let upKw := s.orders.up.level * activeSum s .reserveUp / 100
      let downKw := s.orders.down.level * activeSum s .reserveDown / 100
      let before : Int :=
        if s.orders.up.state = .active then (if sched < 0 then min (sched + upKw) 0 else sched + upKw)
        else if s.orders.down.state = .active then (if 0 < sched then max (sched - downKw) 0 else sched - downKw)
        else sched
      let x1 : Int × LiveLimit :=
        if s.limits.pMax ≤ s.account.pMeas ∧ before < 0 then (0, .pMax) else (before, .none)
      let x2 : Int × LiveLimit := if s.account.pMeas ≤ s.limits.pMin ∧ 0 < x1.1 then (0, .pMin) else x1
      let x3 : Int × LiveLimit :=
        if s.heat.summary.taper = true ∧ (s.heat.summary.taperCap : Int) < x2.1 then (s.heat.summary.taperCap, .taper)
        else x2
      let x4 : Int × LiveLimit := if s.mode = .safe ∧ x3.1 ≠ 0 then (0, .safe) else x3
      ∃ t, exec (.secondEvent ⟨[], (othersThan .dispatchSecond)⟩) s = .next t
        ∧ (let kw := fun x => if s.account.stale = true then (t.train x).setpoint else s.account.power.get x
          let del : Int := (sumOver kw [.e0, .e1, .e2] : Int) - sumOver kw [.c0, .c1, .c2, .c3]
          t.dispatch.tSched = sched ∧ t.dispatch.target = x4.1 ∧ t.dispatch.limit = x4.2
          ∧ t.dispatch.dir = (if 0 < x4.1 then some .discharge else if x4.1 < 0 then some .charge else none)
          ∧ t.dispatch.schedKj = s.dispatch.schedKj + sched ∧ t.dispatch.delKj = s.dispatch.delKj + del
          ∧ t.dispatch.closing = s.dispatch.closing
          ∧ (s.orders.up.state = .active →
            t.dispatch.actDir = some .up ∧ t.dispatch.actKw = upKw
            ∧ t.orders = { s.orders with up := { s.orders.up with
                servedKj := s.orders.up.servedKj + clampInt 0 upKw (del - sched)
                requestedKj := s.orders.up.requestedKj + upKw } })
          ∧ (s.orders.down.state = .active →
            t.dispatch.actDir = some .down ∧ t.dispatch.actKw = downKw
            ∧ t.orders = { s.orders with down := { s.orders.down with
                servedKj := s.orders.down.servedKj + clampInt 0 downKw (sched - del)
                requestedKj := s.orders.down.requestedKj + downKw } })
          ∧ (s.orders.up.state ≠ .active → s.orders.down.state ≠ .active →
            t.dispatch.actDir = none ∧ t.dispatch.actKw = 0 ∧ t.orders = s.orders))
        ∧ Touches [.dispatch, .trains, .heat, .orders, .proj, .port, .clock, .due] s t

/-- R25, R43, R61, R96, R124, R133, R152, R164, R173, R195: each reader answers with the record it names as it stands, or refuses an
argument that names none, and changes nothing; IDENTIFY answers either client in any mode with the vendor, part and revision. The
order of QUERY_ENTRY's reply is the model's reading (log 5). -/
def Obligations.ReadersAnswerAndChangeNothing : Prop :=
  ∀ (s : State) (h : Head) (b : Byte) (id : Half),
    (InGoodOrder (.readAccount h) s →
      exec (.readAccount h) s = .next (answer 0x11 .ok (accountBytes s.account) s.accepted))
      ∧ (InGoodOrder (.readStore h b) s →
        (∀ i, storeOf b = some i → exec (.readStore h b) s = .next (answer 0x1A .ok (storeBytes s i) s.accepted))
          ∧ (3 ≤ b.toNat → Refuses (.readStore h b) s 0x1A .badArgument))
      ∧ (InGoodOrder (.queryEntry h id) s →
        (∀ e, findEntry s id.toNat = some e →
          exec (.queryEntry h id) s = .next (answer 0x24 .ok (entryBytes e) s.accepted))
          ∧ ((∀ e ∈ s.table.entries, e.id ≠ id.toNat) → Refuses (.queryEntry h id) s 0x24 .noSuchEntry))
      ∧ (InGoodOrder (.projectionState h) s →
        exec (.projectionState h) s = .next (answer 0x28 .ok (projectionBytes s.proj) s.accepted))
      ∧ (InGoodOrder (.readTrain h b) s →
        (∀ x, trainOf b = some x → exec (.readTrain h b) s = .next (answer 0x36 .ok (trainBytes s x) s.accepted))
          ∧ (7 ≤ b.toNat → Refuses (.readTrain h b) s 0x36 .badArgument))
      ∧ (InGoodOrder (.patternRead h b) s →
        (∀ p, patternOf b = some p →
          exec (.patternRead h b) s = .next (answer 0x39 .ok (patternBytes (patternAt s p)) s.accepted))
          ∧ (8 ≤ b.toNat → Refuses (.patternRead h b) s 0x39 .badArgument))
      ∧ (InGoodOrder (.orderState h) s →
        exec (.orderState h) s = .next (answer 0x3A .ok (orderStateBytes s) s.accepted))
      ∧ (InGoodOrder (.clockRead h) s →
        exec (.clockRead h) s = .next (answer 0x41 .ok (clockReadBytes s) s.accepted))
      ∧ (InGoodOrder (.paramRead h b) s →
        (∀ p, Param.ofIndex b.toNat = some p →
          exec (.paramRead h b) s = .next
            (answer 0x49 .ok
              (u8 b.toNat ++ u32 (s.limits.get p) ++ u32 (Limits.default.get p) ++ flag s.locked) s.accepted))
          ∧ (112 ≤ b.toNat → Refuses (.paramRead h b) s 0x49 .badArgument))
      ∧ ∀ client : Client, inReset s = false → busy s = false →
        exec (.identify ⟨client, 0⟩) s = .next (answer 0x01 .ok [0x4F, 0x00, 0x72, 0x01] s.accepted)

/-- R19: REBASE is refused while STALE; otherwise it takes mass and p_calc from the reading, zeroes the accumulators, raises REBASED and
hands on a basis change. R24: EXCURSION_CLEAR is judged in its order; taken, each named side that is HELD becomes CLEAR, which clears
EXCURSION_STOPPED on that side's trains (R116), and every other side and train stands. -/
def Obligations.RebaseAndExcursionClear : Prop :=
  (∀ (s : State) (h : Head), InGoodOrder (.rebase h) s →
      let m := massFromPressure s.limits s.account.pMeas s.account.tMeas
      let p := pressureFromMass s.limits m s.account.tMeas
      (s.account.stale = true → Refuses (.rebase h) s 0x12 .unavailable)
        ∧ (s.account.stale = false →
          exec (.rebase h) s = .next
            (answer 0x12 .ok (u32 s.account.mass ++ u32 m ++ u16 p)
              (basisChange
                (raise .rebased (s.accepted.withAccount { s.account with mass := m, pCalc := p, eC := 0, eE := 0 }))))))
    ∧ ∀ (s : State) (h : Head) (side : Byte), InGoodOrder (.excursionClear h side) s →
      let hi := side.toNat = 0 ∨ side.toNat = 2
      let lo := side.toNat = 1 ∨ side.toNat = 2
      let clears := fun d : Side => (if d = .charge then hi else lo) ∧ excursionOf s.account d = .held
      (3 ≤ side.toNat → Refuses (.excursionClear h side) s 0x13 .badArgument)
        ∧ (side.toNat < 3 → s.account.stale = true → Refuses (.excursionClear h side) s 0x13 .unavailable)
        ∧ (side.toNat < 3 → s.account.stale = false →
          (hi ∧ s.account.excHi = .active ∨ lo ∧ s.account.excLo = .active) →
            Refuses (.excursionClear h side) s 0x13 .wrongState)
        ∧ (side.toNat < 3 → s.account.stale = false →
          ¬ (hi ∧ s.account.excHi = .active ∨ lo ∧ s.account.excLo = .active) →
            ∃ t, exec (.excursionClear h side) s = .next t
              ∧ (clears .charge → t.account.excHi = .clear) ∧ (¬ clears .charge → t.account.excHi = s.account.excHi)
              ∧ (clears .discharge → t.account.excLo = .clear) ∧ (¬ clears .discharge → t.account.excLo = s.account.excLo)
              ∧ t.account = { s.account with excHi := t.account.excHi, excLo := t.account.excLo }
              ∧ (∀ x : TrainIx, clears x.side → t.train x = { s.train x with excursionStopped := false })
              ∧ (∀ x : TrainIx, ¬ clears x.side → t.train x = s.train x)
              ∧ Answered 0x13 .ok (u8 t.account.excHi.code ++ u8 t.account.excLo.code) t
              ∧ Touches [.account, .trains, .port, .supervision] s t)

/-- R13, R14: pressure taken to mass and back never rises, and with limits and temperature in range and the mass unsaturated it
loses at most 1 kPa. -/
def Obligations.PressureRoundTripLosesAtMostOne : Prop :=
  ∀ (l : Limits) (p k : Nat), p ≤ 20000 → 2500 ≤ k → k ≤ 3500 →
    Param.zPm.inRange l.zPm = true → Param.vCav.inRange l.vCav = true →
      pressureFromMass l (massFromPressure l p k) k ≤ p
        ∧ (massFromPressure l p k < 100000000 → p ≤ pressureFromMass l (massFromPressure l p k) k + 1)

/-! ### The heat stores -/

/-- R40, R41: STORE_SERVICE and STORE_SET are judged in their order. Taken, the one isolates or returns the store and hands on a
basis change, the other sets the content; both recompute the pooled figures and touch nothing else. -/
def Obligations.StoreRequestsAnswer : Prop :=
  ∀ (s : State) (h : Head) (index direction : Byte) (mj : Word),
    (InGoodOrder (.storeService h index direction) s →
      (3 ≤ index.toNat ∨ 2 ≤ direction.toNat → Refuses (.storeService h index direction) s 0x18 .badArgument)
        ∧ ∀ i, storeOf index = some i →
          (direction = 0 → (s.store i).state ≠ .available →
            Refuses (.storeService h index direction) s 0x18 .wrongState)
            ∧ (direction = 1 → (s.store i).state ≠ .isolated →
              Refuses (.storeService h index direction) s 0x18 .wrongState)
            ∧ (direction = 0 → (s.store i).state = .available →
              exec (.storeService h index direction) s = .next
                (answer 0x18 .ok (u8 StoreState.isolated.code)
                  (basisChange (recomputePools (s.accepted.setStore i { s.store i with isolated := true })))))
            ∧ (direction = 1 → (s.store i).state = .isolated → (s.store i).trains = [] →
              exec (.storeService h index direction) s = .next
                (answer 0x18 .ok (u8 StoreState.available.code)
                  (basisChange (recomputePools (s.accepted.setStore i { s.store i with isolated := false }))))))
      ∧ (InGoodOrder (.storeSet h index mj) s →
        (3 ≤ index.toNat → Refuses (.storeSet h index mj) s 0x19 .badArgument)
          ∧ ∀ i, storeOf index = some i →
            (s.limits.capHs.get i < mj.toNat → Refuses (.storeSet h index mj) s 0x19 .badArgument)
              ∧ (mj.toNat ≤ s.limits.capHs.get i → s.mode ≠ .commissioning →
                Refuses (.storeSet h index mj) s 0x19 .modeRefused)
              ∧ (mj.toNat ≤ s.limits.capHs.get i → s.mode = .commissioning →
                exec (.storeSet h index mj) s = .next
                  (answer 0x19 .ok (u32 mj.toNat ++ u16 0)
                    (recomputePools (s.accepted.setStore i { s.store i with contentKj := mj.toNat * 1000 })))))

/-- R33 to R35: a second whose store response comes first (one of the orders the command may carry, log 2) and ends no interval, that
rejects no heat and in which no draw meets a store that cannot give it, leaves in the stores exactly what they held, with every delivery
and less every draw. -/
def Obligations.HeatIsConservedWithoutRejection : Prop :=
  ∀ s t : State, inReset s = false → s.due = [] → ContentLaw s → StoreSeparation s →
    (s.clock.running = true → s.clock.s + 1 < s.limits.lInt) →
    (∀ i, drawsFrom s i ≤ (s.store i).contentKj) →
    exec (.secondEvent ⟨[.storesSecond], []⟩) s = .next t → t.heat.summary.reject = false →
      (StoreIx.all.map fun i => (t.store i).contentKj).sum + (StoreIx.all.map (drawsFrom s)).sum
        = (StoreIx.all.map fun i => (s.store i).contentKj).sum + (StoreIx.all.map (deliveriesTo s)).sum

/-- R31, R33 to R38: the store block's response to a second, made alone (log 24), in its seven steps. Every store takes its deliveries up
to its capacity and gives its draws down to nothing, at the metered power (R9); full stores are handled in index order, with their
overflow; then stores that hold expanders; then each RUNNING train on no store is given one; and the heat summary takes the pooled
figures, whether heat was rejected, and the taper. -/
def Obligations.StoresRespondToSecond : Prop :=
  ∀ s : State, inReset s = false → s.due = [] →
    let kw := fun x => if s.account.stale = true then (s.train x).setpoint else s.account.power.get x
    let delivers := fun x => kw x * s.limits.hC / 1000
    let draws := fun x => (kw x * s.limits.hE + 999) / 1000
    let on := fun (d : Side) (i : StoreIx) => (s.store i).trains.filter fun x => decide (x.side = d)
    let gain := fun i => (s.store i).contentKj + sumOver delivers (on .charge i)
    let cap := fun i => s.limits.capHs.get i * 1000
    let running := fun d : Side => d.trains.filter fun x => decide ((s.train x).state = .running)
    let nowhere := (running .charge).filter fun x => !StoreIx.all.any fun i => (s.store i).trains.contains x
    ∃ t moved full low placed lost, exec (.secondEvent ⟨[], othersThan .storesSecond⟩) s = .next t
      ∧ (∀ i, moved.store i =
        { s.store i with contentKj := min (cap i) (gain i) - sumOver draws (on .discharge i) })
      ∧ moved.heat.summary = s.heat.summary ∧ Touches [.heat] s moved
      ∧ Through (FullHandled fun i => gain i - cap i) StoreIx.all (moved, 0) (full, lost)
      ∧ Through LowHandled StoreIx.all full low
      ∧ Through PlacedLate TrainIx.all low placed
      ∧ (∀ i, t.store i = placed.store i)
      ∧ (let live := StoreIx.all.filter fun i => !(t.store i).isolated
        let pooled := (live.map fun i => (t.store i).contentKj / 1000).sum
        let top := sumOver (tpMax s) (running .discharge)
        let taper := if s.limits.lowMark = 0 then top else min top (top * pooled / s.limits.lowMark)
        t.heat.summary =
          { pooledContent := pooled, pooledCapacity := (live.map fun i => s.limits.capHs.get i).sum
            reject := decide (0 < lost + sumOver delivers nowhere), taper := decide (taper < top), taperCap := taper })
      ∧ Touches [.heat, .clock, .due] s t

/-! ### The commitment table -/

/-- R51, R91, R92, R186: ADMIT is judged on its arguments, the mode and the room, in that order. Otherwise its candidate, made of
the request's fields, is handed to a trial and the request stays in flight; the table stands. That an entry whose last interval is past
4,294,967,295 is refused with BAD_ARGUMENT is the model's reading of R51's 'without wrapping' (log 11). -/
def Obligations.AdmitIsJudgedInOrder : Prop :=
  ∀ (s : State) (h : Head) (a : AdmitArgs), InGoodOrder (.admitEntry h a) s →
    (¬ AdmitInRange s a → Refuses (.admitEntry h a) s 0x20 .badArgument)
      ∧ (AdmitInRange s a → s.mode ≠ .normal → Refuses (.admitEntry h a) s 0x20 .modeRefused)
      ∧ (AdmitInRange s a → s.mode = .normal → 128 ≤ s.table.entries.length → Refuses (.admitEntry h a) s 0x20 .tableFull)
      ∧ (AdmitInRange s a → s.mode = .normal → s.table.entries.length < 128 →
        ∃ t c, exec (.admitEntry h a) s = .next t
          ∧ t.proj = { s.proj with trial := placeTrial c s.accepted, restarts := 0 }
          ∧ (t.proj.trial = .waiting c ∨ ∃ w, s.proj.walkBasis = some w ∧ s.proj.state = .valid
            ∧ c.entry.last ≤ w.base + 191 ∧ t.proj.trial = .running c (trialIncluded s.table.entries c))
          ∧ c.amends = false ∧ entryKindOf a.kind = some c.entry.kind ∧ c.entry.first = a.first.toNat
          ∧ c.entry.span = a.span.toNat ∧ c.entry.power = a.power.toNat ∧ c.entry.price = a.price.toInt
          ∧ c.entry.reference = a.reference.toNat ∧ c.entry.status = .admitted ∧ c.entry.delivered = 0
          ∧ c.entry.shortCount = 0
          ∧ t.port = { s.port with reply := [], overrun := false, inFlight := some .admitEntry }
          ∧ Touches [.proj, .port, .supervision] s t)

/-- R49, R50, R52, R93: a trial walk that completes for an ADMIT refuses it with the failing row, or finds its gate closed, or
stores the entry under the next free id and the next seq, answers with them, and hands on a basis change. The trial is over in
each case. Past the largest seq the next one is a free value (log 1), of which nothing is said. -/
def Obligations.TrialWalkSettlesAdmit : Prop :=
  ∀ (s : State) (c : Candidate) (included : List Entry) (w : WalkInputs), inReset s = false →
    s.proj.trial = .running c included → s.proj.walkBasis = some w → s.port.inFlight = some .admitEntry →
    (∀ r, trialJudgement w s.proj.rows c included = some r →
      exec .trialWalkComplete s = .next
        (answer 0x20 .refusedInfeasible (packedVerdict r.verdict false ++ u32 r.interval) (endTrial s)))
      ∧ (trialJudgement w s.proj.rows c included = none → PastGate s c.entry →
        exec .trialWalkComplete s = .next (answer 0x20 .gateClosed [] (endTrial s)))
      ∧ (trialJudgement w s.proj.rows c included = none → ¬ PastGate s c.entry →
        ∃ t seq, exec .trialWalkComplete s = .next t
          ∧ (s.table.lastSeq < 4294967295 → seq = s.table.lastSeq + 1)
          ∧ t.table =
            { entries := insertEntry { c.entry with id := takeId s, seq := seq } s.table.entries
              nextId := idAfter (takeId s), lastSeq := seq }
          ∧ t.proj.trial = .none ∧ t.proj.restarts = 0
          ∧ (s.proj.state ≠ .unavailable → t.proj.state = .stale ∧ t.proj.walk = some (walkInputs t))
          ∧ Answered 0x20 .ok (u16 (takeId s) ++ u32 seq ++ u8 c.entry.status.code) t
          ∧ Touches [.table, .proj, .port, .freeCount] s t)

/-- R54 to R56: AMEND is judged on its arguments, the entry, its status, the gate (for the trading client) and the mode (for a
larger power), in that order. A change of power is handed to a trial in place of the old power; a change of price or reference
alone is carried out at once with the status kept; an AMEND that changes no value changes nothing. The payload of that last reply is
the model's reading (log 18). -/
def Obligations.AmendIsJudgedInOrder : Prop :=
  ∀ (s : State) (h : Head) (a : AmendArgs), InGoodOrder (.amend h a) s →
    (¬ AmendInRange a → Refuses (.amend h a) s 0x21 .badArgument)
      ∧ (AmendInRange a → findEntry s a.id.toNat = none → Refuses (.amend h a) s 0x21 .noSuchEntry)
      ∧ ∀ e, AmendInRange a → findEntry s a.id.toNat = some e →
        let gate := h.client = .trading ∧ PastGate s e
        let e' := { e with power := amendPower a e, price := amendPrice a e, reference := amendReference a e }
        let larger := e.power < e'.power ∧ s.mode ≠ .normal
        (e.status.isOpen = false → Refuses (.amend h a) s 0x21 .wrongState)
          ∧ (e.status.isOpen = true → gate → Refuses (.amend h a) s 0x21 .gateClosed)
          ∧ (e.status.isOpen = true → ¬ gate → larger → Refuses (.amend h a) s 0x21 .modeRefused)
          ∧ (e.status.isOpen = true → ¬ gate → ¬ larger → e'.power ≠ e.power →
            ∃ t f, exec (.amend h a) s = .next t
              ∧ t.proj =
                { s.proj with
                  trial := placeTrial ⟨{ e with power := e'.power }, true⟩ s.accepted, restarts := 0 }
              ∧ f = .amend h.client e.id e'.power (if a.fields.getLsbD 1 then some e'.price else none)
                  (if a.fields.getLsbD 2 then some e'.reference else none)
              ∧ t.port = { s.port with reply := [], overrun := false, inFlight := some f }
              ∧ Touches [.proj, .port, .supervision] s t)
          ∧ (e.status.isOpen = true → ¬ gate → e'.power = e.power → e' = e →
            exec (.amend h a) s = .next (answer 0x21 .ok (amendBytes e) s.accepted))
          ∧ (e.status.isOpen = true → ¬ gate → e'.power = e.power → e' ≠ e →
            exec (.amend h a) s = .next (answer 0x21 .ok (amendBytes e') (basisChange (putEntry e' s.accepted))))

/-- R55, R93: a trial walk that completes for an AMEND refuses it with the failing row, or finds the entry no longer open
(WRONG_STATE) or its gate closed for the trading client, or gives every named field its new value with the status ADMITTED, raises
RECOVERED for an entry that was AT_RISK, and hands on a basis change. -/
def Obligations.TrialWalkSettlesAmend : Prop :=
  ∀ (s : State) (c : Candidate) (included : List Entry) (w : WalkInputs) (client : Client) (id power : Nat)
    (price : Option Int) (reference : Option Nat), inReset s = false →
    s.proj.trial = .running c included → s.proj.walkBasis = some w →
    s.port.inFlight = some (.amend client id power price reference) →
    (∀ r, trialJudgement w s.proj.rows c included = some r →
      exec .trialWalkComplete s = .next
        (answer 0x21 .refusedInfeasible (packedVerdict r.verdict false ++ u32 r.interval) (endTrial s)))
      ∧ ∀ e, trialJudgement w s.proj.rows c included = none → findEntry s id = some e →
        let e' : Entry :=
          { e with
            power := power, price := price.getD e.price, reference := reference.getD e.reference, status := .admitted }
        (e.status.isOpen = false → exec .trialWalkComplete s = .next (answer 0x21 .wrongState [] (endTrial s)))
          ∧ (e.status.isOpen = true → client = .trading → PastGate s e →
            exec .trialWalkComplete s = .next (answer 0x21 .gateClosed [] (endTrial s)))
          ∧ (e.status.isOpen = true → ¬ (client = .trading ∧ PastGate s e) →
            exec .trialWalkComplete s = .next
              (answer 0x21 .ok (amendBytes e')
                (basisChange
                  (if e.status.isAtRisk then raise .recovered (putEntry e' (endTrial s)) else putEntry e' (endTrial s)))))

/-- R57, R58: WITHDRAW of an open entry frees its slot, unless the trading client is past its gate; the plant client's WITHDRAW of an
ACTIVE entry curtails it; every other entry is in the wrong state. R60: SETTLE answers with the figures of a closed entry and frees its
slot, and is no basis change; a second SETTLE of the same id then finds no entry. -/
def Obligations.WithdrawAndSettle : Prop :=
  (∀ (s : State) (h : Head) (id : Half), InGoodOrder (.withdraw h id) s →
      (findEntry s id.toNat = none → Refuses (.withdraw h id) s 0x22 .noSuchEntry)
        ∧ ∀ e, findEntry s id.toNat = some e →
          let gate := h.client = .trading ∧ PastGate s e
          let e' : Entry := { e with status := .curtailed, shortCount := e.shortCount + 1 }
          (e.status.isClosed = true ∨ h.client = .trading ∧ e.status = .active →
            Refuses (.withdraw h id) s 0x22 .wrongState)
            ∧ (e.status.isOpen = true → gate → Refuses (.withdraw h id) s 0x22 .gateClosed)
            ∧ (e.status.isOpen = true → ¬ gate →
              exec (.withdraw h id) s = .next
                (answer 0x22 .ok (u8 e.status.code)
                  (basisChange (s.accepted.setEntries (s.table.entries.filter fun x => decide (x.id ≠ e.id))))))
            ∧ (e.status = .active → h.client = .plant →
              exec (.withdraw h id) s = .next
                (answer 0x22 .ok (u8 EntryStatus.curtailed.code ++ u32 e.delivered ++ u8 (e.shortCount + 1))
                  (basisChange (raise .entryClosed (putEntry e' s.accepted))))))
    ∧ ∀ (s : State) (h : Head) (id : Half), InGoodOrder (.settle h id) s →
      (findEntry s id.toNat = none → Refuses (.settle h id) s 0x23 .noSuchEntry)
        ∧ ∀ e, findEntry s id.toNat = some e →
          (e.status.isClosed = false → Refuses (.settle h id) s 0x23 .wrongState)
            ∧ (e.status.isClosed = true →
              ∃ t, t = answer 0x23 .ok (settleBytes e)
                  (s.accepted.setEntries (s.table.entries.filter fun x => decide (x.id ≠ e.id)))
                ∧ exec (.settle h id) s = .next t ∧ findEntry t id.toNat = none
                ∧ Refuses (.settle h id) t 0x23 .noSuchEntry)

/-- R62, R63: a page lists, in index order, up to 16 ids of the matching records whose key is greater than the resume position,
says whether more follow, and gives the key of the last record listed, or the request's own position if none was. -/
def Obligations.FindReturnsPagesInOrder : Prop :=
  ∀ (s : State) (h : Head) (n first seq : Word) (tag : Half) (i : Instr) (hit : Entry → Bool),
    i = .findInterval h n first seq ∧ hit = (fun e => decide (e.first ≤ n.toNat ∧ n.toNat ≤ e.last))
      ∨ i = .findReference h tag first seq ∧ hit = (fun e => decide (e.reference = tag.toNat)) →
    InGoodOrder i s →
      let found := s.table.entries.filter fun e =>
        decide (first.toNat < e.first ∨ first.toNat = e.first ∧ seq.toNat < e.seq) && hit e
      let page := found.take 16
      let resume := (page.getLast?.map fun e => (e.first, e.seq)).getD (first.toNat, seq.toNat)
      ∃ r, i.request? = some (r, h)
        ∧ exec i s = .next
          (answer r.code .ok
            (u8 page.length ++ flag (decide (16 < found.length)) ++ u32 resume.1 ++ u32 resume.2
              ++ page.flatMap fun e => u16 e.id) s.accepted)

/-- R49: the id the next admission takes is held by no record and lies in 1..65,535, and it is next_id itself if that is free. -/
def Obligations.NextIdIsFree : Prop :=
  ∀ s : State, TableLaw s →
    (∀ e ∈ s.table.entries, e.id ≠ takeId s) ∧ 1 ≤ takeId s ∧ takeId s ≤ 65535
      ∧ ((∀ e ∈ s.table.entries, e.id ≠ s.table.nextId) → takeId s = s.table.nextId)

/-! ### The projection engine -/

/-- R89, R70, R71, R91: the completion of a full walk replaces rows, record and walk basis, applies the outcome to the records that
are still open and still the ones the walk took, raises PROJECTION_DONE, and AT_RISK or RECOVERED exactly where a record is demoted
or recovered, and lets a WAITING trial run. -/
def Obligations.FullWalkWritesRecord : Prop :=
  ∀ (s : State) (w : WalkInputs), inReset s = false → s.proj.walk = some w →
    let e := fullWalk w
    ∃ t, exec .fullWalkComplete s = .next t
      ∧ t.proj.rows = e.rows ∧ t.proj.baseInterval = w.base ∧ t.proj.walkBasis = some w ∧ t.proj.state = .valid
      ∧ t.proj.walk = none ∧ t.proj.passes = e.passes ∧ t.proj.demoted = e.outcome.excluded.length
      ∧ t.proj.recovered = e.outcome.included.length ∧ t.proj.completed = (s.proj.completed + 1) % 4294967296
      ∧ t.proj.unresolvedCount = (e.rows.filter (·.unresolved)).length
      ∧ t.proj.firstUnresolved = (e.rows.find? (·.unresolved)).map (·.interval)
      ∧ t.table = { s.table with entries := s.table.entries.map (judged e.outcome) }
      ∧ t.proj.restarts = s.proj.restarts
      ∧ (∀ c, s.proj.trial = .waiting c →
        t.proj.trial = if c.entry.last ≤ w.base + 191 then .running c (trialIncluded t.table.entries c) else .waiting c)
      ∧ ((∀ c, s.proj.trial ≠ .waiting c) → t.proj.trial = s.proj.trial)
      ∧ t.port =
        { s.port with
          latched := s.port.latched ||| Notice.projectionDone.bit
            ||| (if s.table.entries.any (demotes e.outcome) then Notice.atRisk.bit else 0)
            ||| (if s.table.entries.any (recovers e.outcome) then Notice.recovered.bit else 0) }
      ∧ Touches [.table, .proj, .port] s t

/-- R88: when a full walk completes, no entry in ADMITTED status covers an interval whose row verdict is other than OK. The premise,
that the walk took every open record, is kept by every step (StepKeepsPortLaw). -/
def Obligations.FullWalkPromiseHolds : Prop :=
  ∀ s t : State, inReset s = false → s.proj.walk.isSome = true → WalkHoldsTable s → exec .fullWalkComplete s = .next t →
    ∀ e ∈ t.table.entries, e.status = .admitted → ∀ r ∈ t.proj.rows, e.covers r.interval = true → r.verdict = .ok

/-- R75, R79 to R85: the rows a pass computes over any included entries follow the rules, figure by figure, and each verdict is the first
test that fails. R92, R93: so do the rows of a trial, from the candidate's first row on, over the walk basis and the rows as they stand;
and the trial is refused with the lowest of them that fails within the candidate's intervals, or after them where the table's row is OK. -/
def Obligations.WalkRowsFollowTheRules : Prop :=
  (∀ (w : WalkInputs) (included : List Entry), RowsFollow w included 0 (passRows w included))
    ∧ ∀ (w : WalkInputs) (rows : List Row) (c : Candidate) (included : List Entry), rows.length = 192 →
      c.entry.first ≤ w.base + 191 →
      let j := c.entry.first - w.base
      let fresh := rows.take j ++ trialRows w rows c included
      let refuses := fun (k : Nat) (r : Row) => j ≤ k ∧ fresh[k]? = some r ∧ r.verdict ≠ .ok
        ∧ (w.base + k ≤ c.entry.last ∨ ∃ q, rows[k]? = some q ∧ q.verdict = .ok)
      RowsFollow w included j fresh
        ∧ (trialJudgement w rows c included = none ↔ ∀ k r, ¬ refuses k r)
        ∧ ∀ risk, trialJudgement w rows c included = some risk ↔
          ∃ k r, refuses k r ∧ risk = ⟨r.verdict, r.interval⟩ ∧ ∀ k' r', refuses k' r' → k ≤ k'

/-- R86 to R89: a full walk is a run of the demotion loop over the entries it took, in one pass more than it excludes entries, and at most
one more than it took. A row of its end is unresolved exactly where it fails and is row 0 or marked. The outcome lists as excluded the
entries the loop took out and the stranded ones (still included, open, and covering an unresolved row, with the lowest such row), and as
included those that were AT_RISK and are neither. Which entry is chosen where an open one covers row 0 is the model's reading (log 6). -/
def Obligations.WalkDemotesByTheRules : Prop :=
  ∀ w : WalkInputs,
    let e := fullWalk w
    ∃ excluded included marks, DemotionRun w excluded w.entries [] included marks e.rows
      ∧ e.passes = excluded.length + 1 ∧ e.passes ≤ w.entries.length + 1
      ∧ (∀ k r, e.rows[k]? = some r → (r.unresolved = true ↔ r.verdict ≠ .ok ∧ (k = 0 ∨ k ∈ marks)))
      ∧ (let covers := fun (x : Entry) (k : Nat) (r : Row) =>
          e.rows[k]? = some r ∧ r.unresolved = true ∧ x.covers r.interval = true
        let stranded := fun (x : Entry) (risk : Risk) => x ∈ included ∧ x.status.isOpen = true
          ∧ ∃ k r, covers x k r ∧ risk = ⟨r.verdict, r.interval⟩ ∧ ∀ k' r', covers x k' r' → k ≤ k'
        (∀ id seq risk, (id, seq, risk) ∈ e.outcome.excluded ↔
            ∃ x, x.id = id ∧ x.seq = seq ∧ ((x, risk) ∈ excluded ∨ stranded x risk))
          ∧ ∀ id seq, (id, seq) ∈ e.outcome.included ↔
            ∃ x, x.id = id ∧ x.seq = seq ∧ x ∈ included ∧ x.status.isAtRisk = true ∧ ∀ risk, ¬ stranded x risk)

/-- R77 to R79, R94: what a basis change does, whatever event but the close hands it on; a walk takes the inputs R79 names as they
stand, the clock's current number among them (of the close, log 25). While UNAVAILABLE it starts the first walk where the account is
BASED and the clock RUNNING, and is else dropped; otherwise it restarts the full walk, and a trial in hand waits with one restart
more, or at the fifth ends with RETRY_LATER, which frees the port. R110: a counted trip is one. R90, R94: a boundary with the account
BASED is two, in whatever order the blocks respond (log 2), with none put off (log 24); the walk that then runs takes the new interval
and the new mass. Where one of the two is put off, the walk that runs between them has the old interval and the new mass (the close
taken first) or the new interval and the old mass, and the second restarts it. -/
def Obligations.BasisChangeCountsAgainstTrial : Prop :=
  (∀ s : State,
    let inputs : WalkInputs :=
      { mass := s.account.mass, tdk := s.account.tMeas, heat := s.heat.summary.pooledContent
        poolCapacity := s.heat.summary.pooledCapacity, entries := s.table.entries.filter fun e => !e.status.isClosed
        trains := PerTrain.ofFn fun x => ⟨(s.train x).state, (s.train x).startClass, (s.train x).rank⟩
        limits := s.limits, base := s.clock.n }
    let walks := { s.proj with state := .stale, walk := some inputs }
    (s.proj.state = .unavailable → s.account.basis = .based → s.clock.running = true → basisChange s = s.withProj walks)
      ∧ (s.proj.state = .unavailable → s.account.basis = .unbased ∨ s.clock.running = false → basisChange s = s)
      ∧ (s.proj.state ≠ .unavailable → s.proj.trial = .none → basisChange s = s.withProj walks)
      ∧ ∀ c, s.proj.state ≠ .unavailable → s.proj.trial.candidate? = some c →
        (s.proj.restarts < 4 →
          basisChange s = s.withProj { walks with trial := .waiting c, restarts := s.proj.restarts + 1 })
          ∧ ∀ f, 4 ≤ s.proj.restarts → s.port.inFlight = some f →
            basisChange s = answer f.code .retryLater [] (s.withProj { walks with trial := .none, restarts := 0 }))
    ∧ (∀ (s : State) (x : TrainIx) (c : Candidate) (f : InFlight), inReset s = false →
        (s.train x).tripLine = false → (s.train x).state ≠ .outOfService → (s.train x).state ≠ .lockedOut →
        s.proj.state ≠ .unavailable → s.proj.trial.candidate? = some c → s.port.inFlight = some f →
        ∃ t, exec (.tripAssertion x) s = .next t
          ∧ t.proj.state = .stale ∧ t.proj.walk = some (walkInputs t) ∧ (walkInputs t).base = s.clock.n
          ∧ (s.proj.restarts < 4 →
            t.proj.trial = .waiting c ∧ t.proj.restarts = s.proj.restarts + 1 ∧ t.port.inFlight = some f
              ∧ t.port.reply = s.port.reply)
          ∧ (4 ≤ s.proj.restarts → t.proj.trial = .none ∧ t.proj.restarts = 0 ∧ Answered f.code .retryLater [] t))
    ∧ (∀ (order : List Part) (s : State) (c : Candidate) (f : InFlight), inReset s = false → s.due = [] →
      s.clock.running = true → s.account.basis = .based → s.proj.state ≠ .unavailable →
      s.proj.trial.candidate? = some c → s.port.inFlight = some f →
      ∃ t w, exec (.boundary ⟨order, []⟩) s = .next t
        ∧ t.proj.state = .stale ∧ t.proj.walk = some w ∧ w.base = t.clock.n ∧ w.mass = t.account.mass
        ∧ (s.proj.restarts < 3 →
          t.proj.trial = .waiting c ∧ t.proj.restarts = s.proj.restarts + 2 ∧ t.port.inFlight = some f
            ∧ t.port.reply = s.port.reply)
        ∧ (3 ≤ s.proj.restarts → t.proj.trial = .none ∧ t.proj.restarts = 0 ∧ Answered f.code .retryLater [] t))
    ∧ ∀ (order : List Part) (s : State), inReset s = false → s.due = [] → s.clock.running = true →
      s.account.basis = .based → s.proj.state ≠ .unavailable →
      let between := fun (later : Part) (base : Nat) (mass : State → Nat) => ∃ t u w v,
        exec (.boundary ⟨order, [later]⟩) s = .next t ∧ t.clock.n = (s.clock.n + 1) % 4294967296
          ∧ t.proj.state = .stale ∧ t.proj.walk = some w ∧ w.base = base ∧ w.mass = mass t
          ∧ step (t.withPending []) = .next u
          ∧ u.proj.state = .stale ∧ u.proj.walk = some v ∧ v.base = t.clock.n ∧ v.mass = u.account.mass
      between .projectionBoundary s.clock.n (fun t => t.account.mass)
        ∧ between .accountClose ((s.clock.n + 1) % 4294967296) (fun _ => s.account.mass)

/-! ### The trains -/

/-- R101, R103, R104, R108, R109, R119: the last count of a state's timer. STARTING goes to READY, READY to STOPPING, STOPPING to
COOLDOWN and COOLDOWN to IDLE, each with the fields its rule gives; the other trains' records stand. That such a row makes its one
count alone is the model's choice (log 8). In a second where the sequencer's response alone is made (log 24), every train's timer,
run time, down time and class are counted in R101's order and both cycles advance: a train whose READY timer expires is STOPPING when its
down time counts, and shows 1 s (log 7, for the worked example that shows 0 s). -/
def Obligations.TrainTimersExpire : Prop :=
  (∀ (s : State) (x : TrainIx), inReset s = false → (s.train x).stateTimer = 1 →
    let v := s.train x
    let class' := fun v' : Train => { v' with startClass := judgedClass s.limits x v' }
    let leaves := fun (c : Instr) (v' : Train) => ∃ t, exec c s = .next t ∧ t.train x = v'
      ∧ (∀ y, y ≠ x → t.train y = s.train y) ∧ Touches [.trains, .heat, .proj, .port] s t
      ∧ (∀ i, (t.store i).trains = if v.state = .ready then (s.store i).trains.filter (· ≠ x) else (s.store i).trains)
      ∧ (v.state ≠ .ready → Latched .trainEvent t)
    (v.state = .starting → leaves (.startingExpiry x)
      { v with state := .ready, stateTimer := (paramsOf s x).readyMax, setpoint := 0, startClass := .hot })
      ∧ (v.state = .ready → leaves (.readyMaxExpiry x)
        { v with
          state := .stopping, stateTimer := (paramsOf s x).stopTime, setpoint := 0, downSince := 0, startClass := .hot
          warm := decide (x.side = .discharge ∧ v.heater ≠ Heater.off) })
      ∧ (v.state = .stopping → leaves (.stopTimeExpiry x)
        (class' { v with state := .cooldown, stateTimer := (paramsOf s x).minDown }))
      ∧ (v.state = .cooldown → leaves (.minDownExpiry x) (class' { v with state := .idle, stateTimer := 0 })))
    ∧ ∀ s : State, inReset s = false → s.due = [] →
      let expires := fun x => decide ((s.train x).stateTimer = 1)
      let timed : TrainIx → Train := fun x =>
        let v := s.train x
        if v.stateTimer = 0 then v
        else if expires x = false then { v with stateTimer := v.stateTimer - 1 }
        else
          match v.state with
          | .starting => { v with state := .ready, stateTimer := (paramsOf s x).readyMax, setpoint := 0 }
          | .ready =>
            { v with
              state := .stopping, stateTimer := (paramsOf s x).stopTime, setpoint := 0, downSince := 0
              warm := decide (x.side = .discharge ∧ v.heater ≠ Heater.off) }
          | .stopping => { v with state := .cooldown, stateTimer := (paramsOf s x).minDown }
          | .cooldown => { v with state := .idle, stateTimer := 0 }
          | .outOfService | .idle | .running | .tripped | .lockedOut => { v with stateTimer := 0 }
      let counted : TrainIx → Train := fun x =>
        let v := timed x
        { v with
          runTime := if v.state = .running then min 86400 (v.runTime + 1) else v.runTime
          downSince := if v.state.stoppable then v.downSince else min 86401 (v.downSince + 1) }
      ∃ t, exec (.secondEvent ⟨[], (othersThan .trainsSecond)⟩) s = .next t
        ∧ (∀ x, t.train x = { counted x with startClass := judgedClass s.limits x (counted x) })
        ∧ t.trains.timerA = s.trains.timerA.advance ∧ t.trains.timerB = s.trains.timerB.advance
        ∧ (∀ i, t.store i =
          { s.store i with
            trains := (s.store i).trains.filter fun x => !(expires x && decide ((s.train x).state = .ready)) })
        ∧ t.heat.summary = s.heat.summary
        ∧ (∀ x, expires x = true → (s.train x).state = .starting ∨ (s.train x).state = .stopping
          ∨ (s.train x).state = .cooldown → Latched .trainEvent t)
        ∧ Touches [.trains, .heat, .proj, .port, .clock, .due] s t

/-- R7, R101, R119: the counts that bring a reading to READ_STALE, a HOT train past HOT_WINDOW (its class becomes COLD, a basis
change) and a cycle's phase to its period. That each row makes its one count and nothing of the rest of the second (no metering, no
other cycle or train) is the model's choice (log 8). -/
def Obligations.ClassCycleAndAgeExpiries : Prop :=
  ∀ s : State, inReset s = false →
    (s.account.stale = false → s.account.readingSeen = true → s.account.readingAge < 65535 →
      s.limits.readStale = s.account.readingAge + 1 →
      exec .readingStale s = .next
        (s.withAccount { s.account with readingAge := s.limits.readStale, stale := true }))
      ∧ (∀ x, (s.train x).state = .idle ∨ (s.train x).state = .cooldown → (s.train x).startClass = .hot →
        (s.train x).downSince = s.limits.hotWindow → s.limits.hotWindow ≤ 86400 →
        exec (.hotWindowExpiry x) s = .next
          (basisChange (s.setTrain x { s.train x with downSince := s.limits.hotWindow + 1, startClass := .cold })))
      ∧ (s.trains.timerA.phase + 1 = s.trains.timerA.period →
        exec (.heaterCycleWrap .a) s = .next
          (s.withTrains { s.trains with timerA := { s.trains.timerA with phase := 0 } }))
      ∧ (s.trains.timerB.phase + 1 = s.trains.timerB.period →
        exec (.heaterCycleWrap .b) s = .next
          (s.withTrains { s.trains with timerB := { s.trains.timerB with phase := 0 } }))

/-- R110, R111: an assertion of a released TRIP line stops the train at once and counts, locking it out at TRIPS_LOCK; out of
service or locked out only the line is noted; a release sets the line alone. -/
def Obligations.TripStopsTrain : Prop :=
  ∀ (s : State) (x : TrainIx), inReset s = false →
    let v := s.train x
    (v.tripLine = false → v.state ≠ .outOfService → v.state ≠ .lockedOut →
      let trips := min 255 (v.tripsToday + 1)
      ∃ t, exec (.tripAssertion x) s = .next t
        ∧ (t.train x).state = (if s.limits.tripsLock ≤ trips then .lockedOut else .tripped)
        ∧ (t.train x).setpoint = 0 ∧ (t.train x).stateTimer = 0 ∧ (t.train x).tripsToday = trips
        ∧ (t.train x).tripLine = true ∧ (t.train x).warm = false
        ∧ (t.train x).downSince
          = (if v.state = .starting ∨ v.state = .ready ∨ v.state = .running then 0 else v.downSince)
        ∧ (t.train x).startLimited = v.startLimited ∧ (t.train x).excursionStopped = v.excursionStopped
        ∧ permit t x = false ∧ trainStore t x = none ∧ (∀ y, y ≠ x → t.train y = s.train y)
        ∧ Latched .trip t ∧ Touches [.trains, .heat, .proj, .port] s t)
      ∧ (v.tripLine = false → v.state = .outOfService ∨ v.state = .lockedOut →
        exec (.tripAssertion x) s = .next (s.setTrain x { v with tripLine := true }))
      ∧ (v.tripLine = true → exec (.tripRelease x) s = .next (s.setTrain x { v with tripLine := false }))

/-- R112 to R114: TRAIN_RESET, TRAIN_UNLOCK and TRAIN_SERVICE are judged in their order. Taken, each moves the one train and hands
on a basis change; all but OUT raise TRAIN_EVENT. -/
def Obligations.TrainStateRequests : Prop :=
  ∀ (s : State) (h : Head) (index direction : Byte),
    let moves := fun (c : Instr) (x : TrainIx) (v' : Train) (event : Bool) (code : Byte) (payload : State → List Byte) =>
      ∃ t, exec c s = .next t ∧ t.train x = { v' with startClass := judgedClass s.limits x v' }
        ∧ (∀ y, y ≠ x → t.train y = s.train y) ∧ Answered code .ok (payload t) t
        ∧ t.port.latched = s.port.latched ||| (if event then Notice.trainEvent.bit else 0)
        ∧ (s.proj.state ≠ .unavailable → t.proj.state = .stale ∧ t.proj.walk = some (walkInputs t))
        ∧ Touches [.trains, .proj, .port, .supervision] s t
    (InGoodOrder (.trainReset h index) s →
      (7 ≤ index.toNat → Refuses (.trainReset h index) s 0x31 .badArgument)
        ∧ ∀ x, trainOf index = some x →
          ((s.train x).state ≠ .tripped ∨ (s.train x).tripLine = true → Refuses (.trainReset h index) s 0x31 .wrongState)
            ∧ ((s.train x).state = .tripped → (s.train x).tripLine = false →
              moves (.trainReset h index) x { s.train x with state := .cooldown, stateTimer := (paramsOf s x).minDown } true
                0x31 (fun t => u8 (t.train x).state.code ++ u8 (s.train x).tripsToday)))
      ∧ (InGoodOrder (.trainUnlock h index) s →
        (7 ≤ index.toNat → Refuses (.trainUnlock h index) s 0x32 .badArgument)
          ∧ ∀ x, trainOf index = some x →
            ((s.train x).state ≠ .lockedOut ∨ (s.train x).tripLine = true →
              Refuses (.trainUnlock h index) s 0x32 .wrongState)
              ∧ ((s.train x).state = .lockedOut → (s.train x).tripLine = false →
                moves (.trainUnlock h index) x
                  { s.train x with state := .cooldown, stateTimer := (paramsOf s x).minDown, tripsToday := 0 } true
                  0x32 (fun t => u8 (t.train x).state.code ++ u8 0)))
      ∧ (InGoodOrder (.trainService h index direction) s →
        (7 ≤ index.toNat ∨ 2 ≤ direction.toNat → Refuses (.trainService h index direction) s 0x30 .badArgument)
          ∧ ∀ x, trainOf index = some x →
            let v := s.train x
            let removable := v.state = .idle ∨ v.state = .cooldown ∨ v.state = .tripped ∨ v.state = .lockedOut
            (direction = 0 → ¬ removable → Refuses (.trainService h index direction) s 0x30 .wrongState)
              ∧ (direction = 1 → v.state ≠ .outOfService ∨ v.tripLine = true →
                Refuses (.trainService h index direction) s 0x30 .wrongState)
              ∧ (direction = 0 → removable →
                moves (.trainService h index direction) x
                  { v with state := .outOfService, stateTimer := 0, downSince := 86401, warm := false } false
                  0x30 (fun t => u8 (t.train x).state.code))
              ∧ (direction = 1 → v.state = .outOfService → v.tripLine = false →
                moves (.trainService h index direction) x
                  { v with state := .cooldown, stateTimer := (paramsOf s x).minDown } true
                  0x30 (fun t => u8 (t.train x).state.code)))

/-- R120: HEAT of an expander is driven exactly while it is IDLE, COOLDOWN or STARTING and its assignment is ON, or a cycle whose phase
is below its on_time; a compressor has none. R121 to R123: TRAIN_PRIORITY gives each listed train the rank of its place; HEATER_ASSIGN
gives an expander its heater, with warm lost on OFF, and an assignment equal to the present one changes nothing; HEATER_TIMER restarts a
cycle with its new times. The order of TRAIN_PRIORITY's reply is the model's reading (log 5). -/
def Obligations.TrainSettingRequests : Prop :=
  ∀ (s : State) (h : Head),
    (∀ side order, InGoodOrder (.trainPriority h side order) s →
      (∀ d (ts : List TrainIx), sideOfByte side = some d → order.map trainOf = ts.map some → ts.Perm d.trains →
        ∃ t, exec (.trainPriority h side order) s = .next t
          ∧ (∀ x, x ∈ ts → t.train x = { s.train x with rank := ts.idxOf x + 1 })
          ∧ (∀ x, x ∉ ts → t.train x = s.train x)
          ∧ Answered 0x33 .ok (d.trains.flatMap fun x => u8 (ts.idxOf x + 1)) t
          ∧ Touches [.trains, .port, .supervision] s t)
        ∧ ((∀ d (ts : List TrainIx), sideOfByte side = some d → order.map trainOf = ts.map some → ¬ ts.Perm d.trains) →
          Refuses (.trainPriority h side order) s 0x33 .badArgument))
      ∧ (∀ index heater, InGoodOrder (.heaterAssign h index heater) s →
        (index.toNat < 4 ∨ 7 ≤ index.toNat ∨ 4 ≤ heater.toNat →
          Refuses (.heaterAssign h index heater) s 0x34 .badArgument)
          ∧ ∀ x g, trainOf index = some x → x.side = .discharge → heaterOf heater = some g →
            let v := s.train x
            (v.heater = g → exec (.heaterAssign h index heater) s = .next
              (answer 0x34 .ok (u8 g.code ++ flag v.warm ++ u8 v.startClass.code) s.accepted))
              ∧ (v.heater ≠ g →
                let v1 := { v with heater := g, warm := v.warm && decide (g ≠ Heater.off) }
                let v2 := { v1 with startClass := judgedClass s.limits x v1 }
                exec (.heaterAssign h index heater) s = .next
                  (answer 0x34 .ok (u8 g.code ++ flag v2.warm ++ u8 v2.startClass.code)
                    (if v2.startClass = v.startClass then s.accepted.setTrain x v2
                      else basisChange (s.accepted.setTrain x v2)))))
      ∧ (∀ x, heatOutput s x = true ↔
        inReset s = false ∧ x.side = .discharge
          ∧ ((s.train x).state = .idle ∨ (s.train x).state = .cooldown ∨ (s.train x).state = .starting)
          ∧ ((s.train x).heater = .on ∨ (s.train x).heater = .cycleA ∧ s.trains.timerA.phase < s.trains.timerA.onTime
            ∨ (s.train x).heater = .cycleB ∧ s.trains.timerB.phase < s.trains.timerB.onTime))
      ∧ ∀ timer period onTime, InGoodOrder (.heaterTimer h timer period onTime) s →
        let ok := 10 ≤ period.toNat ∧ period.toNat ≤ 3600 ∧ 1 ≤ onTime.toNat ∧ onTime.toNat ≤ period.toNat
        let c : Cycle := ⟨period.toNat, onTime.toNat, 0⟩
        let bytes := u16 period.toNat ++ u16 onTime.toNat ++ u16 0
        (2 ≤ timer.toNat ∨ ¬ ok → Refuses (.heaterTimer h timer period onTime) s 0x35 .badArgument)
          ∧ (timer = 0 → ok → exec (.heaterTimer h timer period onTime) s = .next
            (answer 0x35 .ok bytes (s.accepted.withTrains { s.trains with timerA := c })))
          ∧ (timer = 1 → ok → exec (.heaterTimer h timer period onTime) s = .next
            (answer 0x35 .ok bytes (s.accepted.withTrains { s.trains with timerB := c })))

/-- R117: outside NORMAL no command brings a train into STARTING, and no step does (a step on an empty queue that makes a response that is
due among them, log 10); with every STARTING, READY and RUNNING train stopped on entry, in SAFE no train enters READY or RUNNING either;
and every command and every step keeps that. -/
def Obligations.TrainsStartOnlyInNormal : Prop :=
  ∀ s t : State, ((∃ c : Instr, exec c s = .next t) ∨ step s = .next t) →
    (s.mode ≠ .normal → ∀ x, (t.train x).state = .starting → (s.train x).state = .starting)
      ∧ (s.mode = .safe → SafeLaw s → ∀ x, (t.train x).state.stoppable = false)
      ∧ (SafeLaw s → SafeLaw t)

/-! ### The clock and the dispatcher -/

/-- R130, R146, R162: CLOCK_SET is judged on its values and the mode; taken, the clock runs from them, the closing figures of the
dispatcher and of both activation records hold the interval before, so that the first boundary closes afresh, and the engine, if it may
walk, starts a walk. Every other record stands as the accepted frame left it, but for what was still due to a boundary of the old
numbering, which is made first (the model's choice, log 24). -/
def Obligations.ClockSetStartsClock : Prop :=
  ∀ (s : State) (h : Head) (n : Word) (dayPos seconds : Half), InGoodOrder (.clockSet h n dayPos seconds) s →
    let bad := 86400 / s.limits.lInt ≤ dayPos.toNat ∨ s.limits.lInt ≤ seconds.toNat
    let before := if n.toNat = 0 then 4294967295 else n.toNat - 1
    let u := settle true s.accepted
    (bad → Refuses (.clockSet h n dayPos seconds) s 0x40 .badArgument)
      ∧ (¬ bad → s.mode ≠ .commissioning → Refuses (.clockSet h n dayPos seconds) s 0x40 .modeRefused)
      ∧ (¬ bad → s.mode = .commissioning →
        ∃ t, exec (.clockSet h n dayPos seconds) s = .next t
          ∧ t.clock =
            { running := true, n := n.toNat, s := seconds.toNat, dayPos := dayPos.toNat, lastCapture := none }
          ∧ t.dispatch = { u.dispatch with closing := { u.dispatch.closing with interval := before } }
          ∧ t.orders =
            { u.orders with
              up := { u.orders.up with closing := { u.orders.up.closing with interval := before } }
              down := { u.orders.down with closing := { u.orders.down.closing with interval := before } } }
          ∧ (u.proj.state ≠ .unavailable ∨ u.account.basis = .based →
            t.proj.state = .stale ∧ t.proj.walk = some (walkInputs t))
          ∧ (u.proj.state = .unavailable → u.account.basis = .unbased → t.proj = u.proj)
          ∧ t.port = { u.port with reply := replyFrame 0x40 .ok (clockBytes t.clock), inFlight := none }
          ∧ Touches [.clock, .dispatch, .orders, .proj, .port] u t)
      ∧ (s.due = [] → u = s.accepted)

/-- R16 to R18, R39, R115, R129: a boundary, in whatever order the blocks respond (log 2), with none put off (log 24). The clock moves
to the next interval; a BASED account closes into its new mass and rebases when a fresh reading differs by more than REBASE_TOL; each
store loses its standing loss; the day boundary clears the day's counts; and the engine holds a walk of the new interval.
R128, R129: a second that brings s to L_INT while the clock runs is a boundary besides, in whatever order: the clock moves so, the
figures are closed, the entries close and open and the engine walks the new interval in that step. With the responses to the second put
off (log 24), it is a boundary whole. -/
def Obligations.BoundaryClosesAccountAndStores : Prop :=
  (∀ (order : List Part) (s : State), inReset s = false → s.due = [] → s.clock.running = true →
    let a := s.account
    let charged := a.eC / workC s.limits a.pCalc
    let discharged := ceilDiv a.eE (workE s.limits a.pCalc)
    let m := min 100000000 (a.mass + charged - discharged)
    let p := pressureFromMass s.limits m a.tMeas
    let rebased := !a.stale && decide (s.limits.rebaseTol < ((a.pMeas : Int) - p).natAbs)
    let m' := if rebased then massFromPressure s.limits a.pMeas a.tMeas else m
    let dayPos := if 86400 / s.limits.lInt ≤ s.clock.dayPos + 1 then 0 else s.clock.dayPos + 1
    ∃ t, exec (.boundary ⟨order, []⟩) s = .next t
      ∧ t.clock = { s.clock with n := (s.clock.n + 1) % 4294967296, s := 0, dayPos := dayPos }
      ∧ (a.basis = .based →
        t.account =
          { a with
            mass := m', pCalc := pressureFromMass s.limits m' a.tMeas, eC := 0, eE := 0
            lastClose := ⟨charged, discharged, rebased⟩ })
      ∧ (a.basis = .unbased → t.account = { a with eC := 0, eE := 0, lastClose := ⟨0, 0, false⟩ })
      ∧ (a.basis = .based → rebased = true → Latched .rebased t)
      ∧ (∀ i, t.store i = { s.store i with contentKj := afterStandingLoss s.limits.loss (s.store i).contentKj })
      ∧ t.heat.summary = s.heat.summary
      ∧ (∀ x, t.train x =
        if dayPos = 0 then { s.train x with startsToday := 0, tripsToday := 0, startLimited := false } else s.train x)
      ∧ (s.proj.state ≠ .unavailable →
        t.proj.state = .stale ∧ ∃ w, t.proj.walk = some w ∧ w.base = t.clock.n)
      ∧ Touches [.account, .heat, .table, .proj, .trains, .clock, .dispatch, .orders, .port] s t)
    ∧ ∀ (order : List Part) (s : State), inReset s = false → s.due = [] → s.clock.running = true →
      s.limits.lInt ≤ s.clock.s + 1 →
      let n := (s.clock.n + 1) % 4294967296
      let dayPos := if 86400 / s.limits.lInt ≤ s.clock.dayPos + 1 then 0 else s.clock.dayPos + 1
      (∃ t, exec (.secondEvent ⟨order, []⟩) s = .next t
        ∧ t.clock = { s.clock with n := n, s := 0, dayPos := dayPos } ∧ t.due = []
        ∧ t.dispatch.closing.interval = s.clock.n ∧ (∀ d, (t.act d).closing.interval = s.clock.n)
        ∧ (∀ e ∈ s.table.entries, e.status = .active → e.last = s.clock.n →
          ∃ f ∈ t.table.entries, f.id = e.id ∧ f.seq = e.seq ∧ f.status.isClosed = true)
        ∧ (∀ e ∈ s.table.entries, e.status.isOpen = true → e.first = n →
          ∃ f ∈ t.table.entries, f.id = e.id ∧ f.seq = e.seq ∧ f.status = .active)
        ∧ (s.proj.state ≠ .unavailable → t.proj.state = .stale ∧ ∃ w, t.proj.walk = some w ∧ w.base = n))
        ∧ ∃ t u order', exec (.secondEvent ⟨order, secondParts⟩) s = .next t
          ∧ exec (.boundary ⟨order', []⟩) s = .next u ∧ t = u.withDue t.due
          ∧ (t.due.map Due.part).Perm (secondParts.filter (· ≠ .clockSecond)) ∧ ∀ d ∈ t.due, d.toBoundary = false

/-- R64 to R69, R146, R160, R162: a boundary, in whatever order the blocks respond (log 2), with none put off (log 24). The dispatcher
closes the interval that ends, once, into direction, S, D and f; so does each activation record, and ORDER_SHORT is raised where one that
closes was short. An ACTIVE entry takes its figures: an energy entry by f if it is of the scheduled direction and else whole, a reserve
entry its share of the served energy, the lowest seq with the remainder, and one short interval more where f or the record is short; at
its last interval it closes, and an open entry whose first interval begins becomes ACTIVE (the ids are distinct, which every step keeps).
Below the wrap of the interval number an activation whose backing ends is released, and ORDER is raised exactly then. That a reserve
entry's credit is added also where delivered would pass R46's 48,000,000 kWh is the model's choice (log 21). -/
def Obligations.BoundarySettlesTableAndOrders : Prop :=
  ∀ (order : List Part) (s : State), inReset s = false → s.due = [] → s.clock.running = true →
    let n := s.clock.n
    let n' := (n + 1) % 4294967296
    let sched := s.dispatch.schedKj
    let del := s.dispatch.delKj
    let delivered := if 0 < sched then del.toNat else if sched < 0 then (-del).toNat else 0
    let fresh : DispatchClosing :=
      { interval := n
        direction := if sched < 0 then some .charge else if 0 < sched then some .discharge else none
        scheduled := sched.natAbs, deliveredKj := delivered
        fraction := if sched = 0 then 1000 else min 1000 (delivered * 1000 / sched.natAbs) }
    let figures := if s.dispatch.closing.interval = n then s.dispatch.closing else fresh
    let closeOf := fun a : Activation =>
      if a.closing.interval = n then a
      else { a with closing := ⟨n, a.servedKj, a.requestedKj⟩, servedKj := 0, requestedKj := 0 }
    let short := fun d =>
      let c := (closeOf (s.act d)).closing
      decide (c.servedKj * 1000 < c.requestedKj * (1000 - s.limits.curtailTol))
    let energy := fun (e : Entry) (d : Side) =>
      if figures.direction = some d then
        (e.power * s.limits.lInt * figures.fraction / 3600000, decide (figures.fraction < 1000 - s.limits.curtailTol))
      else (e.power * s.limits.lInt / 3600, false)
    let reserve := fun (e : Entry) (d : Dir) =>
      let total := (closeOf (s.act d)).closing.servedKj / 3600
      let named := s.table.entries.filter fun f => decide (f.kind = e.kind) && decide (f.status = .active)
      let part := fun f : Entry => total * f.power / (named.map (·.power)).sum
      let rest := if ∀ f ∈ named, e.seq ≤ f.seq then total - (named.map part).sum else 0
      (part e + rest, short d)
    let taken : Entry → Nat × Bool := fun e =>
      match e.kind with
      | .energyCharge => energy e .charge
      | .energyDischarge => energy e .discharge
      | .reserveUp => reserve e .up
      | .reserveDown => reserve e .down
    let settled : Entry → Entry := fun e =>
      if e.status = .active then
        let shorts := e.shortCount + if (taken e).2 then 1 else 0
        { e with
          delivered := e.delivered + (taken e).1, shortCount := shorts
          status := if e.last = n then (if shorts = 0 then .delivered else .curtailed) else .active }
      else if e.status.isOpen = true ∧ e.first = n' then { e with status := .active }
      else e
    let unbacked := fun d => decide ((s.act d).state = .active) && !s.table.entries.any fun e =>
      decide (e.kind = if d = .up then .reserveUp else .reserveDown) && decide (e.first ≤ n + 1)
        && decide (n + 1 ≤ e.last) && !e.status.isClosed
    ∃ t, exec (.boundary ⟨order, []⟩) s = .next t
      ∧ t.dispatch =
        (if s.dispatch.closing.interval = n then s.dispatch
          else { s.dispatch with closing := fresh, schedKj := 0, delKj := 0 })
      ∧ ((s.table.entries.map (·.id)).Nodup → t.table = { s.table with entries := s.table.entries.map settled })
      ∧ (Latched .entryClosed t ↔
        Latched .entryClosed s ∨ ∃ e ∈ s.table.entries, e.status = .active ∧ e.last = n)
      ∧ (∀ d, (t.act d).closing = (closeOf (s.act d)).closing ∧ (t.act d).servedKj = (closeOf (s.act d)).servedKj
        ∧ (t.act d).requestedKj = (closeOf (s.act d)).requestedKj)
      ∧ (Latched .orderShort t ↔
        Latched .orderShort s ∨ ∃ d, (s.act d).closing.interval ≠ n ∧ short d = true)
      ∧ (n < 4294967295 →
        (∀ d, t.act d = closeOf (if unbacked d then (s.act d).releasedBy .backingEnded else s.act d))
          ∧ (Latched .order t ↔ Latched .order s ∨ ∃ d, unbacked d = true))
      ∧ t.orders.patterns = s.orders.patterns ∧ t.orders.assembler = s.orders.assembler

/-- R131: a sync pulse is taken only while the clock runs and SYNC_MODE is PULSE. It ends the interval within 2 s of its end,
restarts the count within 2 s of its start, and is otherwise reported as a slip. -/
def Obligations.SyncPulseActsByItsSecond : Prop :=
  ∀ (order later : List Part) (s : State), inReset s = false →
    (s.clock.running = false ∨ s.limits.syncMode = .free → exec (.syncPulse ⟨order, later⟩) s = .next s)
      ∧ (s.clock.running = true → s.limits.syncMode = .pulse → 300 ≤ s.limits.lInt →
        let keep := fun k => s.withClock { s.clock with lastCapture := some (s.clock.s, k) }
        (s.limits.lInt ≤ s.clock.s + 2 → exec (.syncPulse ⟨order, later⟩) s = exec (.boundary ⟨order, later⟩) (keep .boundary))
          ∧ (s.clock.s ≤ 2 →
            exec (.syncPulse ⟨order, later⟩) s = .next
              (s.withClock { s.clock with s := 0, lastCapture := some (s.clock.s, .restart) }))
          ∧ (2 < s.clock.s → s.clock.s + 2 < s.limits.lInt →
            exec (.syncPulse ⟨order, later⟩) s = .next (raise .clockSlip (keep .slip))))

/-- R138 to R140, R142, R143: the dispatcher's response to a second, made alone (log 24), on every train. The commit set is the
shortest run of available trains that carries the target. A RUNNING train that is no member is stopped at TP_MIN, or unloaded and held
where MIN_RUN has not passed, and above TP_MIN ramps to it; a READY one that is neither needed nor held is stopped. An IDLE member is
started in NORMAL, up to the start limit; a READY one is loaded once the other side is, or is brought, to 0 kW, and else waits; a
RUNNING one then ramps to its share. Every other train but an IDLE one that the look-ahead starts stands. R139: hold becomes no for every
train that is not READY; that this is judged when step 3 has released, so that a READY member loaded after it keeps its mark until the
next second, is the model's reading (log 9). R31: each loaded train is given the store its side then has best, after the releases; that
the loads follow one another in rank order, and the ramps in index order, is the model's choice (log 22). -/
def Obligations.DispatcherMovesTrains : Prop :=
  ∀ s : State, inReset s = false → s.due = [] → PlantLaw s →
    ∃ t, exec (.secondEvent ⟨[], (othersThan .dispatchSecond)⟩) s = .next t
      ∧ (t.dispatch.target = 0 → t.dispatch.commit = [])
      ∧ (∀ d, t.dispatch.dir = some d → ShortestRun s d t.dispatch.target.natAbs t.dispatch.commit)
      ∧ (let members := t.dispatch.commit.filter fun x => decide ((s.train x).state = .running)
        let total := sumOver (tpMax s) members
        let q := fun x => t.dispatch.target.natAbs * tpMax s x / total
        let rest := t.dispatch.target.natAbs - sumOver q members
        ∀ x, t.dispatch.share.get x =
          if x ∈ members then
            clampNat (paramsOf s x).tpMin (paramsOf s x).tpMax (if members.head? = some x then q x + rest else q x)
          else 0)
      ∧ (∀ x, let v := s.train x
        let l := paramsOf s x
        let commits := x ∈ t.dispatch.commit
        let quiet := ∀ y ∈ x.side.other.trains,
          (s.train y).setpoint = 0 ∨ (s.train y).state = .running ∧ (s.train y).setpoint = (paramsOf s y).tpMin
        let stopped : Train :=
          { v with
            state := .stopping, stateTimer := l.stopTime, setpoint := 0, downSince := 0, startClass := .hot
            warm := decide (x.side = .discharge ∧ v.heater ≠ Heater.off) }
        (v.state = .running → ¬ commits → v.setpoint = l.tpMin → l.minRun ≤ v.runTime → t.train x = stopped)
          ∧ (v.state = .running → ¬ commits → v.setpoint = l.tpMin → v.runTime < l.minRun →
            t.train x = { v with state := .ready, setpoint := 0, stateTimer := l.readyMax, startClass := .hot }
              ∧ t.dispatch.hold.get x = true ∧ Latched .trainEvent t)
          ∧ (v.state = .running → ¬ commits → v.setpoint ≠ l.tpMin →
            t.train x = { v with setpoint := max l.tpMin (v.setpoint - l.ramp) })
          ∧ (v.state = .running → commits → quiet →
            let goal := t.dispatch.share.get x
            t.train x = { v with setpoint :=
              if v.setpoint ≤ goal then min goal (v.setpoint + l.ramp) else max goal (v.setpoint - l.ramp) })
          ∧ (v.state = .running → commits → ¬ quiet →
            let goal := t.dispatch.share.get x
            t.train x =
              if x.side = .discharge ∧ ∀ y ∈ x.side.other.trains, (t.train y).setpoint = 0 then
                { v with setpoint :=
                  if v.setpoint ≤ goal then min goal (v.setpoint + l.ramp) else max goal (v.setpoint - l.ramp) }
              else v)
          ∧ (v.state = .ready → ¬ commits → x ∉ s.dispatch.need → s.dispatch.hold.get x = false → t.train x = stopped)
          ∧ (v.state = .ready → ¬ commits → x ∈ s.dispatch.need ∨ s.dispatch.hold.get x = true → t.train x = v)
          ∧ (v.state = .ready → commits → quiet →
            t.train x =
              { v with state := .running, setpoint := l.tpMin, runTime := 0, stateTimer := 0, startClass := .hot }
              ∧ Latched .trainEvent t)
          ∧ (v.state = .ready → commits → ¬ quiet → t.train x = v)
          ∧ (v.state = .ready → t.dispatch.hold.get x = s.dispatch.hold.get x)
          ∧ (v.state ≠ .ready → ¬ (v.state = .running ∧ ¬ commits ∧ v.setpoint = l.tpMin ∧ v.runTime < l.minRun) →
            t.dispatch.hold.get x = false)
          ∧ (v.state = .idle → commits → s.mode = .normal → v.startsToday < s.limits.startsMax →
            t.train x =
              { v with
                state := .starting, startsToday := v.startsToday + 1
                stateTimer := if v.startClass = .hot then l.startHot else l.startCold })
          ∧ (v.state = .idle → commits → s.mode = .normal → s.limits.startsMax ≤ v.startsToday →
            t.train x = { v with startLimited := true } ∧ Latched .trainEvent t)
          ∧ (v.state = .idle → s.mode ≠ .normal → t.train x = v)
          ∧ (v.state ≠ .idle → v.state ≠ .ready → v.state ≠ .running → t.train x = v))
      ∧ (StoreListLaw s →
        let atMin := fun x => decide ((s.train x).state = .running) && decide ((s.train x).setpoint = (paramsOf s x).tpMin)
        let leaves := fun x => atMin x && !t.dispatch.commit.contains x
        let loads := fun x => decide ((s.train x).state = .ready)
          && x.side.other.trains.all fun y => decide ((s.train y).setpoint = 0) || atMin y
        ∃ released loaded, (∀ i, released.store i = { s.store i with trains := (s.store i).trains.filter fun x => !leaves x })
          ∧ Touches [.heat] s released ∧ Through Placed (t.dispatch.commit.filter loads) released loaded
          ∧ (∀ i, t.store i = loaded.store i) ∧ t.heat.summary = s.heat.summary)
      ∧ t.trains.timerA = s.trains.timerA ∧ t.trains.timerB = s.trains.timerB
      ∧ Touches [.dispatch, .trains, .heat, .orders, .proj, .port, .clock, .due] s t

/-- R141: the look-ahead, in a second where the dispatcher's response alone is made (log 24) and no train stands at its start limit.
In NORMAL the trains needed are those that carry the net power of some row 1 to 4 whose interval is one of the next four, out of the
trains available once the response has released, started and loaded; an IDLE train outside the commit set is started exactly where
such a row needs it and begins no later than its start would end. Outside NORMAL none is needed and none started. -/
def Obligations.DispatcherLooksAhead : Prop :=
  ∀ s : State, inReset s = false → s.due = [] → (∀ x, (s.train x).startsToday < s.limits.startsMax) →
    let ahead := fun r : Row => r ∈ (s.proj.rows.drop 1).take 4 ∧ s.clock.n < r.interval ∧ r.interval ≤ s.clock.n + 4
    let left := fun r : Row =>
      ((s.limits.lInt : Int) - s.clock.s) + ((r.interval : Int) - s.clock.n - 1) * s.limits.lInt
    ∃ t, exec (.secondEvent ⟨[], (othersThan .dispatchSecond)⟩) s = .next t
      ∧ (let needs := fun (r : Row) (x : TrainIx) =>
          (0 < r.netKw ∧ x.side = .discharge ∨ r.netKw < 0 ∧ x.side = .charge)
            ∧ ∃ ts, ShortestRun t x.side r.netKw.natAbs ts ∧ x ∈ ts
        (s.mode ≠ .normal → t.dispatch.need = [] ∧ ∀ x, (s.train x).state = .idle → t.train x = s.train x)
          ∧ (s.mode = .normal →
            (∀ x, x ∈ t.dispatch.need ↔ ∃ r, ahead r ∧ needs r x)
              ∧ ∀ x, (s.train x).state = .idle → x ∉ t.dispatch.commit →
                let v := s.train x
                let start := if v.startClass = .hot then (paramsOf s x).startHot else (paramsOf s x).startCold
                let due := ∃ r, ahead r ∧ needs r x ∧ left r ≤ (start : Int)
                (due → t.train x =
                  { v with state := .starting, startsToday := v.startsToday + 1, stateTimer := start })
                  ∧ (¬ due → t.train x = v)))

/-- R142: the quotients of the members never pass the target, what is left is less than one kW for each member, and where no share
is cut to its train's limits the shares sum to the target. -/
def Obligations.SharesSumToTarget : Prop :=
  ∀ (s : State) (members : List TrainIx), members.Nodup → 0 < sumOver (tpMax s) members →
    let q := quotient s (sumOver (tpMax s) members)
    let rest := s.dispatch.target.natAbs - sumOver q members
    sumOver q members ≤ s.dispatch.target.natAbs ∧ rest < members.length
      ∧ ((∀ x ∈ members, (paramsOf s x).tpMin ≤ q x ∧ q x + rest ≤ (paramsOf s x).tpMax) →
        sumOver (shareOf s members) members = s.dispatch.target.natAbs)

/-! ### The order receiver -/

/-- R162: the shares of an activation's served energy among the entries named to the receiver are theirs, in their order: each is the
floor of its part, and the entry with the lowest seq has the remainder besides; together they are the whole. -/
def Obligations.ServedEnergyIsSharedWhole : Prop :=
  ∀ (total : Nat) (named : List Entry), (named.map (·.seq)).Nodup → 0 < (named.map (·.power)).sum →
    let part := fun e : Entry => total * e.power / (named.map (·.power)).sum
    ((energyShares total named).map (·.2)).sum = total
      ∧ (energyShares total named).map (·.1) = named.map (·.id)
      ∧ ∀ (k : Nat) (e : Entry) (x : Nat × Nat), named[k]? = some e → (energyShares total named)[k]? = some x →
          ((∀ f ∈ named, e.seq ≤ f.seq) → x.2 = part e + (total - (named.map part).sum))
            ∧ ((∃ f ∈ named, f.seq < e.seq) → x.2 = part e)

/-- R149 to R151, R153 to R156: what the assembler does with a byte and with a gap, and what a valid telegram does. Whether or not it
matches, it ends the ON_OTHER activations of other patterns; a match of p also ends the ON_PATTERN activations whose partner is p and
the confirmations on other patterns; then p's action releases, or activates its own record: at LEVEL 0 it releases it, unbacked it
leaves both, and else it releases the opposite one and starts a confirmation, completes one, activates at once, repeats or takes
over. ORDER is raised exactly where a record becomes ACTIVE or is released from ACTIVE, ORDER_UNBACKED exactly where backing fails. -/
def Obligations.OrderBytesMakeTelegrams : Prop :=
  ∀ (s : State) (value : Byte) (framingError : Bool), inReset s = false →
    let discarded := s.withOrders
      { s.orders with assembler := .hunting, discarded := min 65535 (s.orders.discarded + 1) }
    (s.orders.assembler = .hunting →
      (value = 0xC3#8 → framingError = false →
        exec (.orderByte value framingError) s = .next
          (s.withOrders { s.orders with assembler := .collecting [0xC3#8] }))
        ∧ (value ≠ 0xC3#8 ∨ framingError = true → exec (.orderByte value framingError) s = .next s)
        ∧ exec .telegramGapTimeout s = .next s)
      ∧ ∀ held, s.orders.assembler = .collecting held →
        exec .telegramGapTimeout s = .next discarded
          ∧ (framingError = true → exec (.orderByte value framingError) s = .next discarded)
          ∧ (framingError = false → held.length < 4 →
            exec (.orderByte value framingError) s = .next
              (s.withOrders { s.orders with assembler := .collecting (held ++ [value]) }))
          ∧ ∀ sync a b lv, framingError = false → held = [sync, a, b, lv] →
            let counted := { s.orders with assembler := .hunting, received := min 65535 (s.orders.received + 1) }
            let mode := fun r : Activation => (patternAt s r.pattern).releaseMode
            let notice := fun (n : Notice) (on : Bool) => if on then n.bit else 0
            (value ≠ a ^^^ b ^^^ lv → exec (.orderByte value framingError) s = .next discarded)
              ∧ (value = a ^^^ b ^^^ lv → matchPattern s a b = none →
                let ends := fun d => decide ((s.act d).state = .active) && decide (mode (s.act d) = .onOther)
                let ended := fun d => if ends d then (s.act d).releasedBy .other else s.act d
                exec (.orderByte value framingError) s = .next
                  ((s.withOrders
                    { counted with
                      unmatched := min 65535 (s.orders.unmatched + 1), up := ended .up, down := ended .down }).withPort
                    { s.port with latched := s.port.latched ||| notice .order (ends .up || ends .down) }))
              ∧ ∀ p, value = a ^^^ b ^^^ lv → matchPattern s a b = some p →
                let q := patternAt s p
                let level := min 100 lv.toNat
                let hold := if q.releaseMode = .timed then q.hold else 0
                let ended : Dir → Activation := fun d =>
                  let r := s.act d
                  if r.state = .active ∧ mode r = .onOther ∧ r.pattern ≠ p then r.releasedBy .other
                  else if r.state = .active ∧ mode r = .onPattern ∧ (patternAt s r.pattern).partner = p then
                    r.releasedBy .pattern
                  else if r.state = .confirming ∧ r.pattern ≠ p then r.releasedBy .other
                  else r
                let activates := fun d : Dir => decide (q.action = if d = .up then .activateUp else .activateDown)
                let released := fun d : Dir => decide (q.action = .releaseAll)
                  || decide (q.action = if d = .up then .releaseUp else .releaseDown)
                let unbacked := fun d => activates d && decide (level ≠ 0)
                  && (decide (s.mode = .safe) || !backed s d)
                let moves := fun d => activates d && decide (level ≠ 0) && !unbacked d
                let final : Dir → Activation := fun d =>
                  let r := ended d
                  if released d || (activates d && decide (level = 0)) then r.releasedBy .pattern
                  else if moves d.opposite then r.releasedBy .opposite
                  else if moves d then
                    match r.state with
                    | .idle =>
                      if q.confirm then
                        { r with state := .confirming, pattern := p, level := level, confirmLeft := q.confirmWindow }
                      else { r with state := .active, pattern := p, level := level, holdLeft := hold }
                    | .confirming =>
                      { r with state := .active, pattern := p, level := level, confirmLeft := 0, holdLeft := hold }
                    | .active => { r with pattern := p, level := level, holdLeft := hold }
                  else r
                let ordered := fun d => decide ((s.act d).state = .active ∧ (ended d).state ≠ .active)
                  || decide ((ended d).state = .active ∧ (final d).state ≠ .active)
                  || decide ((ended d).state ≠ .active ∧ (final d).state = .active)
                exec (.orderByte value framingError) s = .next
                  ((s.withOrders { counted with up := final .up, down := final .down }).withPort
                    { s.port with
                      latched := s.port.latched ||| notice .order (ordered .up || ordered .down)
                        ||| notice .orderUnbacked (unbacked .up || unbacked .down) })

/-- R153, R158: the last count of a CONFIRMING record's window abandons it without a notice; the last count of an ACTIVE record's
hold, where its pattern is TIMED, releases it with reason TIMED and raises ORDER. That such a row makes its one count alone is the
model's choice (log 8). In a second where the receiver's response alone is made (log 24), both records' windows are counted so. -/
def Obligations.RecordWindowsExpire : Prop :=
  (∀ (s : State) (d : Dir), inReset s = false →
    ((s.act d).state = .confirming → (s.act d).confirmLeft = 1 →
      exec (.confirmWindowExpiry d) s = .next (s.setAct d { s.act d with state := .idle, confirmLeft := 0 }))
      ∧ ((s.act d).state = .active → (patternAt s (s.act d).pattern).releaseMode = .timed → (s.act d).holdLeft = 1 →
        exec (.holdExpiry d) s = .next
          (raise .order (s.setAct d { s.act d with state := .idle, holdLeft := 0, lastRelease := .timed }))))
    ∧ ∀ s : State, inReset s = false → s.due = [] →
      let timed := fun a : Activation =>
        decide (a.state = .active) && decide ((patternAt s a.pattern).releaseMode = .timed)
      let counted := fun a : Activation =>
        if a.state = .confirming then
          (if a.confirmLeft ≤ 1 then { a with state := .idle, confirmLeft := 0 }
            else { a with confirmLeft := a.confirmLeft - 1 })
        else if timed a then
          (if a.holdLeft ≤ 1 then { a with state := .idle, holdLeft := 0, lastRelease := .timed }
            else { a with holdLeft := a.holdLeft - 1 })
        else a
      let ends := fun a : Activation => timed a && decide (a.holdLeft ≤ 1)
      ∃ t, exec (.secondEvent ⟨[], (othersThan .ordersSecond)⟩) s = .next t
        ∧ t.orders = { s.orders with up := counted s.orders.up, down := counted s.orders.down }
        ∧ t.port =
          { s.port with
            latched := s.port.latched ||| (if ends s.orders.up || ends s.orders.down then Notice.order.bit else 0) }
        ∧ Touches [.orders, .port, .clock, .due] s t

/-- R152, R163: PATTERN_WRITE is judged on its arguments and on whether the pattern is in use; ORDER_RELEASE releases each record it
names and leaves the other. The order of ORDER_RELEASE's reply is the model's reading (log 5). -/
def Obligations.PatternAndReleaseRequests : Prop :=
  ∀ (s : State) (h : Head),
    (∀ a : PatternArgs, InGoodOrder (.patternWrite h a) s →
      let ok := a.index.toNat < 8 ∧ a.enabled.toNat ≤ 1 ∧ a.action.toNat < 5 ∧ a.releaseMode.toNat < 3
        ∧ 1 ≤ a.hold.toNat ∧ a.hold.toNat ≤ 3600 ∧ a.partner.toNat < 8 ∧ a.confirm.toNat ≤ 1
        ∧ 1 ≤ a.confirmWindow.toNat ∧ a.confirmWindow.toNat ≤ 30 ∧ ¬ (a.releaseMode = 2 ∧ a.partner = a.index)
      (¬ ok → Refuses (.patternWrite h a) s 0x38 .badArgument)
        ∧ (ok → ∃ i q, patternOf a.index = some i ∧ actionOf a.action = some q.action
          ∧ releaseModeOf a.releaseMode = some q.releaseMode ∧ q.enabled = decide (a.enabled.toNat = 1)
          ∧ q.codeA = a.codeA ∧ q.maskA = a.maskA ∧ q.codeB = a.codeB ∧ q.maskB = a.maskB ∧ q.hold = a.hold.toNat
          ∧ q.partner.val = a.partner.toNat ∧ q.confirm = decide (a.confirm.toNat = 1)
          ∧ q.confirmWindow = a.confirmWindow.toNat
          ∧ let inUse := ∃ d, (s.act d).state ≠ .idle ∧ (s.act d).pattern = i
            (inUse → Refuses (.patternWrite h a) s 0x38 .wrongState)
              ∧ (¬ inUse → exec (.patternWrite h a) s = .next
                (answer 0x38 .ok (patternBytes q)
                  (s.accepted.withOrders { s.orders with patterns := s.orders.patterns.set i q })))))
      ∧ ∀ direction, InGoodOrder (.orderRelease h direction) s →
        let names := fun d : Dir => direction.toNat = 2 ∨ direction.toNat = if d = .up then 0 else 1
        (3 ≤ direction.toNat → Refuses (.orderRelease h direction) s 0x3B .badArgument)
          ∧ (direction.toNat < 3 →
            ∃ t, exec (.orderRelease h direction) s = .next t
              ∧ (∀ d, names d → t.act d = (s.act d).releasedBy .request) ∧ (∀ d, ¬ names d → t.act d = s.act d)
              ∧ t.orders.patterns = s.orders.patterns ∧ t.orders.assembler = s.orders.assembler
              ∧ ((∃ d, names d ∧ (s.act d).state = .active) → Latched .order t)
              ∧ Answered 0x3B .ok
                (u8 t.orders.up.state.code ++ u8 t.orders.up.lastRelease.code ++ u8 t.orders.down.state.code
                  ++ u8 t.orders.down.lastRelease.code) t
              ∧ Touches [.orders, .port, .supervision] s t)

/-! ### Modes, limits and supervision -/

/-- R42, R172, R174: PARAM_WRITE is refused while locked, then for its index, then for its value; taken, it writes the one
parameter, and a written CAP_HS cuts its store's content to the new capacity and recomputes the pooled figures at once. LOCK_LIMITS is
judged on the mode, the account, the clock and the cross-checks in that order; taken, it locks the record and enters NORMAL with
failures 0. -/
def Obligations.LimitsAreWrittenUntilLocked : Prop :=
  ∀ (s : State) (h : Head),
    (∀ index value, InGoodOrder (.paramWrite h index value) s →
      (s.locked = true → Refuses (.paramWrite h index value) s 0x48 .locked)
        ∧ (s.locked = false → Param.ofIndex index.toNat = none →
          Refuses (.paramWrite h index value) s 0x48 .badArgument)
        ∧ ∀ p, s.locked = false → Param.ofIndex index.toNat = some p →
          (p.inRange value.toNat = false → Refuses (.paramWrite h index value) s 0x48 .badArgument)
            ∧ (p.inRange value.toNat = true →
              ∃ t, exec (.paramWrite h index value) s = .next t ∧ t.limits.get p = value.toNat
                ∧ (∀ q, q ≠ p → t.limits.get q = s.limits.get q)
                ∧ (∀ i, (t.store i).contentKj =
                  if p = .capHs i then min (s.store i).contentKj (value.toNat * 1000) else (s.store i).contentKj)
                ∧ (∀ i, (t.store i).trains = (s.store i).trains ∧ (t.store i).isolated = (s.store i).isolated)
                ∧ Answered 0x48 .ok (u8 index.toNat ++ u32 value.toNat) t
                ∧ ((∀ i, p ≠ .capHs i) → t.heat = s.heat)
                ∧ ((∃ i, p = .capHs i) →
                  let live := StoreIx.all.filter fun i => !(t.store i).isolated
                  t.heat.summary =
                    { s.heat.summary with
                      pooledContent := (live.map fun i => (t.store i).contentKj / 1000).sum
                      pooledCapacity := (live.map fun i => t.limits.capHs.get i).sum })
                ∧ Touches [.limits, .heat, .port, .supervision] s t))
      ∧ (InGoodOrder (.lockLimits h) s →
        (s.mode ≠ .commissioning → Refuses (.lockLimits h) s 0x4A .locked)
          ∧ (s.mode = .commissioning → s.account.basis = .unbased ∨ s.clock.running = false →
            Refuses (.lockLimits h) s 0x4A .wrongState)
          ∧ (s.mode = .commissioning → s.account.basis = .based → s.clock.running = true →
            (∀ p, failedCheck s.limits = some p →
              exec (.lockLimits h) s = .next (answer 0x4A .badArgument (u8 p.index) s.accepted))
              ∧ (failedCheck s.limits = none →
                ∃ t, exec (.lockLimits h) s = .next t ∧ t.mode = .normal ∧ t.locked = true
                  ∧ t.supervision = { s.supervision with failures := 0, remaining := s.supervision.timeout }
                  ∧ Latched .mode t ∧ Answered 0x4A .ok (u8 1 ++ flag true) t
                  ∧ Touches [.mode, .locked, .supervision, .port] s t)))

/-- R174: once locked, no command but a power-on reset changes a parameter or the lock, and no step does that runs no power-on reset (one
on an empty queue that makes a response that is due among them, log 10); and the lock stands exactly outside COMMISSIONING, over
cross-checked limits, a BASED account and a running clock, after every command and every step if before it. -/
def Obligations.LimitsStandWhenLocked : Prop :=
  (∀ (c : Instr) (s t : State), exec c s = .next t →
    (s.locked = true → (∀ lines, c ≠ .powerOnReset lines) → t.limits = s.limits ∧ t.locked = true)
      ∧ (LockLaw s → LockLaw t))
    ∧ ∀ s t : State, step s = .next t →
      (s.locked = true → (∀ lines, s.pending.head? ≠ some (.powerOnReset lines)) → t.limits = s.limits ∧ t.locked = true)
        ∧ (LockLaw s → LockLaw t)

/-- R176 to R180: the expiry, an early KEEPALIVE and FORCE_EXPIRY are failures, which count and move the mode by the escalation;
any other KEEPALIVE reloads the timer; SUPERVISION_SET is judged on its codes and on a timeout of 0 s, and takes every field. That the
expiry row makes its one count alone is the model's choice (log 8). -/
def Obligations.SupervisionRequests : Prop :=
  ∀ (s : State) (h : Head),
    let live := s.mode = .normal ∨ s.mode = .hold
    let next := if s.mode = .normal ∧ s.supervision.escalation = .second then Mode.hold else Mode.safe
    let failed := fun (left : Nat) (t : State) => t.mode = next
      ∧ t.supervision =
        { s.supervision with
          failures := min 255 (s.supervision.failures + 1)
          remaining := if next = .hold then s.supervision.timeout else left }
      ∧ Latched .mode t
      ∧ (next = .safe → t.port.mask = 0x3810#16 ∧ t.orders.up = s.orders.up.releasedBy .safe
        ∧ t.orders.down = s.orders.down.releasedBy .safe
        ∧ ∀ x, (t.train x).state = if (s.train x).state.stoppable then .stopping else (s.train x).state)
      ∧ (next = .hold → t.port.mask = s.port.mask ∧ Touches [.mode, .supervision, .port] s t)
      ∧ Touches [.mode, .supervision, .trains, .heat, .orders, .proj, .port] s t
    (inReset s = false → live → 0 < s.supervision.timeout → s.supervision.remaining = 1 →
      ∃ t, exec .supervisionExpiry s = .next t ∧ failed 0 t)
      ∧ (InGoodOrder (.forceExpiry h) s →
        (¬ live → Refuses (.forceExpiry h) s 0x4D .modeRefused)
          ∧ (live → s.supervision.timeout = 0 → Refuses (.forceExpiry h) s 0x4D .wrongState)
          ∧ (live → 0 < s.supervision.timeout →
            ∃ t, exec (.forceExpiry h) s = .next t ∧ failed s.accepted.supervision.remaining t
              ∧ Answered 0x4D .ok (u8 (modeCode t.mode) ++ u8 t.supervision.failures) t))
      ∧ (InGoodOrder (.keepalive h) s →
        let early := s.supervision.window = true ∧ 0 < s.supervision.timeout ∧ live
          ∧ s.supervision.timeout < 2 * s.supervision.remaining
        (early → ∃ t, exec (.keepalive h) s = .next t ∧ failed s.supervision.remaining t
            ∧ Answered 0x4C .ok
              (u8 (modeCode t.mode) ++ u8 t.supervision.failures ++ u8 t.supervision.remaining ++ flag true) t)
          ∧ (¬ early → exec (.keepalive h) s = .next
            (answer 0x4C .ok
              (u8 (modeCode s.mode) ++ u8 s.supervision.failures ++ u8 s.supervision.timeout ++ flag false)
              (s.accepted.withSupervision { s.supervision with remaining := s.supervision.timeout }))))
      ∧ ∀ a : SupervisionArgs, InGoodOrder (.supervisionSet h a) s →
        let ok := a.window.toNat ≤ 1 ∧ a.anyRequest.toNat ≤ 1 ∧ a.reading.toNat ≤ 1 ∧ a.escalation.toNat ≤ 1
        let v : Supervision :=
          { timeout := a.timeout.toNat, window := decide (a.window.toNat = 1), anyRequest := decide (a.anyRequest.toNat = 1)
            reading := decide (a.reading.toNat = 1), escalation := if a.escalation.toNat = 0 then .first else .second
            failures := s.supervision.failures, remaining := a.timeout.toNat }
        (¬ ok → Refuses (.supervisionSet h a) s 0x4B .badArgument)
          ∧ (ok → a.timeout = 0 → s.mode ≠ .commissioning → Refuses (.supervisionSet h a) s 0x4B .modeRefused)
          ∧ (ok → a.timeout ≠ 0 ∨ s.mode = .commissioning →
            exec (.supervisionSet h a) s = .next
              (answer 0x4B .ok (supervisionBytes v) (s.accepted.withSupervision v)))

/-- R168 to R170: ENTER_HOLD, ENTER_SAFE, RESUME and RECOVER in each mode: what moves the mode and what that does, what changes
nothing, and what is refused. -/
def Obligations.ModeRequests : Prop :=
  ∀ (s : State) (h : Head),
    let bytes := fun t : State => u8 (modeCode t.mode) ++ u8 t.supervision.failures
    let rest := ∀ x : TrainIx, (s.train x).state.permitted = false
    (InGoodOrder (.enterHold h) s →
      (s.mode = .commissioning ∨ s.mode = .safe → Refuses (.enterHold h) s 0x50 .modeRefused)
        ∧ (s.mode = .hold → exec (.enterHold h) s = .next (answer 0x50 .ok (bytes s) s.accepted))
        ∧ (s.mode = .normal →
          ∃ t, exec (.enterHold h) s = .next t ∧ t.mode = .hold
            ∧ t.supervision = { s.supervision with remaining := s.supervision.timeout } ∧ Latched .mode t
            ∧ Answered 0x50 .ok (bytes t) t ∧ Touches [.mode, .supervision, .port] s t))
      ∧ (InGoodOrder (.enterSafe h) s →
        (s.mode = .commissioning → Refuses (.enterSafe h) s 0x51 .modeRefused)
          ∧ (s.mode = .safe → exec (.enterSafe h) s = .next (answer 0x51 .ok (bytes s) s.accepted))
          ∧ (s.mode = .normal ∨ s.mode = .hold →
            ∃ t, exec (.enterSafe h) s = .next t ∧ t.mode = .safe ∧ t.supervision = s.accepted.supervision
              ∧ t.port.mask = 0x3810#16 ∧ Latched .mode t
              ∧ (∀ x, (t.train x).state = if (s.train x).state.stoppable then .stopping else (s.train x).state)
              ∧ t.orders.up = s.orders.up.releasedBy .safe ∧ t.orders.down = s.orders.down.releasedBy .safe
              ∧ Answered 0x51 .ok (bytes t) t
              ∧ Touches [.mode, .supervision, .trains, .heat, .orders, .proj, .port] s t))
      ∧ (InGoodOrder (.resume h) s →
        (s.mode ≠ .hold → Refuses (.resume h) s 0x4E .modeRefused)
          ∧ (s.mode = .hold →
            ∃ t, exec (.resume h) s = .next t ∧ t.mode = .normal
              ∧ t.supervision = { s.supervision with failures := 0, remaining := s.supervision.timeout }
              ∧ Latched .mode t ∧ Answered 0x4E .ok (bytes t) t ∧ Touches [.mode, .supervision, .port] s t))
      ∧ (InGoodOrder (.recover h) s →
        (s.mode ≠ .safe → Refuses (.recover h) s 0x4F .modeRefused)
          ∧ (s.mode = .safe → ¬ rest → Refuses (.recover h) s 0x4F .wrongState)
          ∧ (s.mode = .safe → rest → s.account.stale = true → Refuses (.recover h) s 0x4F .unavailable)
          ∧ (s.mode = .safe → rest → s.account.stale = false →
            ∃ t, exec (.recover h) s = .next t ∧ t.mode = .normal
              ∧ t.supervision = { s.supervision with failures := 0, remaining := s.supervision.timeout }
              ∧ Latched .mode t ∧ Answered 0x4F .ok (bytes t) t ∧ Touches [.mode, .supervision, .port] s t))

/-! ### What every command keeps -/

/-- R186: no request of the trading client changes anything but the table, the engine, the port and the supervision timer: not the
account, the stores, the trains, the clock, the dispatcher, the receiver, the mode, the limits or the lock. -/
def Obligations.TradingClientCannotTouchPlant : Prop :=
  ∀ (i : Instr) (r : Request) (h : Head) (s t : State),
    i.request? = some (r, h) → h.client = .trading → exec i s = .next t →
      Touches [.table, .proj, .port, .supervision] s t
        ∧ t.supervision = { s.supervision with remaining := t.supervision.remaining }

/-- R1: power-on reset leaves a state that satisfies every law the other statements show to be kept, whatever the TRIP levels. That no
response is due then (part of LedgerLaw) is the model's choice (log 24); a served fraction of 1,000 is R134's. -/
def Obligations.ResetSatisfiesEveryLaw : Prop :=
  ∀ lines : PerTrain Bool, ∀ s : State, s = State.afterReset lines →
    AccountLaw s ∧ ContentLaw s ∧ ActivationLaw s ∧ AssemblerLaw s ∧ StoreSeparation s ∧ StoreListLaw s
      ∧ TableLaw s ∧ RoomLaw s ∧ IndexLaw s ∧ SeqLaw s ∧ PlantLaw s ∧ SafeLaw s ∧ LockLaw s ∧ PortLaw s ∧ LedgerLaw s

/-- R2, R13, R33, R42, R149, R153, R155: the ranges of the account, the bounds of every store's content, the bytes an assembler
holds, and at most one ACTIVE activation, are each kept by every step. -/
def Obligations.StepKeepsRanges : Prop :=
  ∀ s t : State, step s = .next t →
    (AccountLaw s → AccountLaw t) ∧ (ContentLaw s → ContentLaw t) ∧ (ActivationLaw s → ActivationLaw t)
      ∧ (AssemblerLaw s → AssemblerLaw t)

/-- R30 to R36, R40: no store ever holds trains of both sides; only RUNNING trains are on a store, each on one and once, and none on
an ISOLATED store. -/
def Obligations.StepKeepsStoreLists : Prop :=
  ∀ s t : State, StoreSeparation s → StoreListLaw s → step s = .next t → StoreSeparation t ∧ StoreListLaw t

/-- R47, R49, R50, R51: the table keeps at most 128 records under distinct ids in range, with a slot left for an ADMIT in flight;
and, below the largest seq (past it the next seq is a free value, log 1), the index stays in ascending order of (first, seq). -/
def Obligations.StepKeepsTableAndIndex : Prop :=
  ∀ s t : State, TableLaw s → RoomLaw s → step s = .next t →
    TableLaw t ∧ RoomLaw t
      ∧ (IndexLaw s → SeqLaw s → s.table.lastSeq < 4294967295 → IndexLaw t ∧ SeqLaw t)

/-- R106: whatever is commanded, a RUNNING train's setpoint stays within its limits, every other train's is 0 kW, and the two sides
never carry power together. -/
def Obligations.StepKeepsPlantLaw : Prop := ∀ s t : State, PlantLaw s → step s = .next t → PlantLaw t

/-- R76, R79, R91, R93, R94, R183, R184, R189, R192: a walk runs exactly while the projection is STALE and holds every open record;
a trial is in hand exactly while a request is in flight; a reply and a request in flight are never there together; the cursor stays
inside the rows; no level notice is latched. -/
def Obligations.StepKeepsPortLaw : Prop := ∀ s t : State, PortLaw s → step s = .next t → PortLaw t

/-- R65: no energy entry is ever credited with more energy than its power gives: while ACTIVE, in the intervals it has been ACTIVE,
and once closed, over its span; whatever is commanded, admitted, amended, withdrawn, and however the interval number moves. -/
def Obligations.StepKeepsLedgerLaw : Prop := ∀ s t : State, LedgerLaw s → step s = .next t → LedgerLaw t
end

