-- ==== Sys2Proof/Laws/State.lean ====
section
/-! SUPPORT. Reading a field of a state after a whole-record update: one lemma per field and update, true by rfl. -/

namespace Sys2Proof.Machine.State

variable (s : State)

section withAccount
variable (v : Account)
@[simp] theorem withAccount_account : (s.withAccount v).account = v := rfl
@[simp] theorem withAccount_heat : (s.withAccount v).heat = s.heat := rfl
@[simp] theorem withAccount_table : (s.withAccount v).table = s.table := rfl
@[simp] theorem withAccount_proj : (s.withAccount v).proj = s.proj := rfl
@[simp] theorem withAccount_trains : (s.withAccount v).trains = s.trains := rfl
@[simp] theorem withAccount_clock : (s.withAccount v).clock = s.clock := rfl
@[simp] theorem withAccount_dispatch : (s.withAccount v).dispatch = s.dispatch := rfl
@[simp] theorem withAccount_orders : (s.withAccount v).orders = s.orders := rfl
@[simp] theorem withAccount_mode : (s.withAccount v).mode = s.mode := rfl
@[simp] theorem withAccount_limits : (s.withAccount v).limits = s.limits := rfl
@[simp] theorem withAccount_locked : (s.withAccount v).locked = s.locked := rfl
@[simp] theorem withAccount_supervision : (s.withAccount v).supervision = s.supervision := rfl
@[simp] theorem withAccount_port : (s.withAccount v).port = s.port := rfl
@[simp] theorem withAccount_por : (s.withAccount v).por = s.por := rfl
@[simp] theorem withAccount_due : (s.withAccount v).due = s.due := rfl
@[simp] theorem withAccount_freeCount : (s.withAccount v).freeCount = s.freeCount := rfl
@[simp] theorem withAccount_pending : (s.withAccount v).pending = s.pending := rfl
@[simp] theorem withAccount_withAccount (u : Account) : (s.withAccount u).withAccount v = s.withAccount v := rfl
@[simp] theorem withAccount_self : s.withAccount s.account = s := rfl
end withAccount

section withHeat
variable (v : Heat)
@[simp] theorem withHeat_account : (s.withHeat v).account = s.account := rfl
@[simp] theorem withHeat_heat : (s.withHeat v).heat = v := rfl
@[simp] theorem withHeat_table : (s.withHeat v).table = s.table := rfl
@[simp] theorem withHeat_proj : (s.withHeat v).proj = s.proj := rfl
@[simp] theorem withHeat_trains : (s.withHeat v).trains = s.trains := rfl
@[simp] theorem withHeat_clock : (s.withHeat v).clock = s.clock := rfl
@[simp] theorem withHeat_dispatch : (s.withHeat v).dispatch = s.dispatch := rfl
@[simp] theorem withHeat_orders : (s.withHeat v).orders = s.orders := rfl
@[simp] theorem withHeat_mode : (s.withHeat v).mode = s.mode := rfl
@[simp] theorem withHeat_limits : (s.withHeat v).limits = s.limits := rfl
@[simp] theorem withHeat_locked : (s.withHeat v).locked = s.locked := rfl
@[simp] theorem withHeat_supervision : (s.withHeat v).supervision = s.supervision := rfl
@[simp] theorem withHeat_port : (s.withHeat v).port = s.port := rfl
@[simp] theorem withHeat_por : (s.withHeat v).por = s.por := rfl
@[simp] theorem withHeat_due : (s.withHeat v).due = s.due := rfl
@[simp] theorem withHeat_freeCount : (s.withHeat v).freeCount = s.freeCount := rfl
@[simp] theorem withHeat_pending : (s.withHeat v).pending = s.pending := rfl
@[simp] theorem withHeat_withHeat (u : Heat) : (s.withHeat u).withHeat v = s.withHeat v := rfl
@[simp] theorem withHeat_self : s.withHeat s.heat = s := rfl
end withHeat

section withTable
variable (v : Table)
@[simp] theorem withTable_account : (s.withTable v).account = s.account := rfl
@[simp] theorem withTable_heat : (s.withTable v).heat = s.heat := rfl
@[simp] theorem withTable_table : (s.withTable v).table = v := rfl
@[simp] theorem withTable_proj : (s.withTable v).proj = s.proj := rfl
@[simp] theorem withTable_trains : (s.withTable v).trains = s.trains := rfl
@[simp] theorem withTable_clock : (s.withTable v).clock = s.clock := rfl
@[simp] theorem withTable_dispatch : (s.withTable v).dispatch = s.dispatch := rfl
@[simp] theorem withTable_orders : (s.withTable v).orders = s.orders := rfl
@[simp] theorem withTable_mode : (s.withTable v).mode = s.mode := rfl
@[simp] theorem withTable_limits : (s.withTable v).limits = s.limits := rfl
@[simp] theorem withTable_locked : (s.withTable v).locked = s.locked := rfl
@[simp] theorem withTable_supervision : (s.withTable v).supervision = s.supervision := rfl
@[simp] theorem withTable_port : (s.withTable v).port = s.port := rfl
@[simp] theorem withTable_por : (s.withTable v).por = s.por := rfl
@[simp] theorem withTable_due : (s.withTable v).due = s.due := rfl
@[simp] theorem withTable_freeCount : (s.withTable v).freeCount = s.freeCount := rfl
@[simp] theorem withTable_pending : (s.withTable v).pending = s.pending := rfl
@[simp] theorem withTable_withTable (u : Table) : (s.withTable u).withTable v = s.withTable v := rfl
@[simp] theorem withTable_self : s.withTable s.table = s := rfl
end withTable

section withProj
variable (v : Projection)
@[simp] theorem withProj_account : (s.withProj v).account = s.account := rfl
@[simp] theorem withProj_heat : (s.withProj v).heat = s.heat := rfl
@[simp] theorem withProj_table : (s.withProj v).table = s.table := rfl
@[simp] theorem withProj_proj : (s.withProj v).proj = v := rfl
@[simp] theorem withProj_trains : (s.withProj v).trains = s.trains := rfl
@[simp] theorem withProj_clock : (s.withProj v).clock = s.clock := rfl
@[simp] theorem withProj_dispatch : (s.withProj v).dispatch = s.dispatch := rfl
@[simp] theorem withProj_orders : (s.withProj v).orders = s.orders := rfl
@[simp] theorem withProj_mode : (s.withProj v).mode = s.mode := rfl
@[simp] theorem withProj_limits : (s.withProj v).limits = s.limits := rfl
@[simp] theorem withProj_locked : (s.withProj v).locked = s.locked := rfl
@[simp] theorem withProj_supervision : (s.withProj v).supervision = s.supervision := rfl
@[simp] theorem withProj_port : (s.withProj v).port = s.port := rfl
@[simp] theorem withProj_por : (s.withProj v).por = s.por := rfl
@[simp] theorem withProj_due : (s.withProj v).due = s.due := rfl
@[simp] theorem withProj_freeCount : (s.withProj v).freeCount = s.freeCount := rfl
@[simp] theorem withProj_pending : (s.withProj v).pending = s.pending := rfl
@[simp] theorem withProj_withProj (u : Projection) : (s.withProj u).withProj v = s.withProj v := rfl
@[simp] theorem withProj_self : s.withProj s.proj = s := rfl
end withProj

section withTrains
variable (v : Trains)
@[simp] theorem withTrains_account : (s.withTrains v).account = s.account := rfl
@[simp] theorem withTrains_heat : (s.withTrains v).heat = s.heat := rfl
@[simp] theorem withTrains_table : (s.withTrains v).table = s.table := rfl
@[simp] theorem withTrains_proj : (s.withTrains v).proj = s.proj := rfl
@[simp] theorem withTrains_trains : (s.withTrains v).trains = v := rfl
@[simp] theorem withTrains_clock : (s.withTrains v).clock = s.clock := rfl
@[simp] theorem withTrains_dispatch : (s.withTrains v).dispatch = s.dispatch := rfl
@[simp] theorem withTrains_orders : (s.withTrains v).orders = s.orders := rfl
@[simp] theorem withTrains_mode : (s.withTrains v).mode = s.mode := rfl
@[simp] theorem withTrains_limits : (s.withTrains v).limits = s.limits := rfl
@[simp] theorem withTrains_locked : (s.withTrains v).locked = s.locked := rfl
@[simp] theorem withTrains_supervision : (s.withTrains v).supervision = s.supervision := rfl
@[simp] theorem withTrains_port : (s.withTrains v).port = s.port := rfl
@[simp] theorem withTrains_por : (s.withTrains v).por = s.por := rfl
@[simp] theorem withTrains_due : (s.withTrains v).due = s.due := rfl
@[simp] theorem withTrains_freeCount : (s.withTrains v).freeCount = s.freeCount := rfl
@[simp] theorem withTrains_pending : (s.withTrains v).pending = s.pending := rfl
@[simp] theorem withTrains_withTrains (u : Trains) : (s.withTrains u).withTrains v = s.withTrains v := rfl
@[simp] theorem withTrains_self : s.withTrains s.trains = s := rfl
end withTrains

section withClock
variable (v : Clock)
@[simp] theorem withClock_account : (s.withClock v).account = s.account := rfl
@[simp] theorem withClock_heat : (s.withClock v).heat = s.heat := rfl
@[simp] theorem withClock_table : (s.withClock v).table = s.table := rfl
@[simp] theorem withClock_proj : (s.withClock v).proj = s.proj := rfl
@[simp] theorem withClock_trains : (s.withClock v).trains = s.trains := rfl
@[simp] theorem withClock_clock : (s.withClock v).clock = v := rfl
@[simp] theorem withClock_dispatch : (s.withClock v).dispatch = s.dispatch := rfl
@[simp] theorem withClock_orders : (s.withClock v).orders = s.orders := rfl
@[simp] theorem withClock_mode : (s.withClock v).mode = s.mode := rfl
@[simp] theorem withClock_limits : (s.withClock v).limits = s.limits := rfl
@[simp] theorem withClock_locked : (s.withClock v).locked = s.locked := rfl
@[simp] theorem withClock_supervision : (s.withClock v).supervision = s.supervision := rfl
@[simp] theorem withClock_port : (s.withClock v).port = s.port := rfl
@[simp] theorem withClock_por : (s.withClock v).por = s.por := rfl
@[simp] theorem withClock_due : (s.withClock v).due = s.due := rfl
@[simp] theorem withClock_freeCount : (s.withClock v).freeCount = s.freeCount := rfl
@[simp] theorem withClock_pending : (s.withClock v).pending = s.pending := rfl
@[simp] theorem withClock_withClock (u : Clock) : (s.withClock u).withClock v = s.withClock v := rfl
@[simp] theorem withClock_self : s.withClock s.clock = s := rfl
end withClock

section withDispatch
variable (v : Dispatch)
@[simp] theorem withDispatch_account : (s.withDispatch v).account = s.account := rfl
@[simp] theorem withDispatch_heat : (s.withDispatch v).heat = s.heat := rfl
@[simp] theorem withDispatch_table : (s.withDispatch v).table = s.table := rfl
@[simp] theorem withDispatch_proj : (s.withDispatch v).proj = s.proj := rfl
@[simp] theorem withDispatch_trains : (s.withDispatch v).trains = s.trains := rfl
@[simp] theorem withDispatch_clock : (s.withDispatch v).clock = s.clock := rfl
@[simp] theorem withDispatch_dispatch : (s.withDispatch v).dispatch = v := rfl
@[simp] theorem withDispatch_orders : (s.withDispatch v).orders = s.orders := rfl
@[simp] theorem withDispatch_mode : (s.withDispatch v).mode = s.mode := rfl
@[simp] theorem withDispatch_limits : (s.withDispatch v).limits = s.limits := rfl
@[simp] theorem withDispatch_locked : (s.withDispatch v).locked = s.locked := rfl
@[simp] theorem withDispatch_supervision : (s.withDispatch v).supervision = s.supervision := rfl
@[simp] theorem withDispatch_port : (s.withDispatch v).port = s.port := rfl
@[simp] theorem withDispatch_por : (s.withDispatch v).por = s.por := rfl
@[simp] theorem withDispatch_due : (s.withDispatch v).due = s.due := rfl
@[simp] theorem withDispatch_freeCount : (s.withDispatch v).freeCount = s.freeCount := rfl
@[simp] theorem withDispatch_pending : (s.withDispatch v).pending = s.pending := rfl
@[simp] theorem withDispatch_withDispatch (u : Dispatch) : (s.withDispatch u).withDispatch v = s.withDispatch v := rfl
@[simp] theorem withDispatch_self : s.withDispatch s.dispatch = s := rfl
end withDispatch

section withOrders
variable (v : Orders)
@[simp] theorem withOrders_account : (s.withOrders v).account = s.account := rfl
@[simp] theorem withOrders_heat : (s.withOrders v).heat = s.heat := rfl
@[simp] theorem withOrders_table : (s.withOrders v).table = s.table := rfl
@[simp] theorem withOrders_proj : (s.withOrders v).proj = s.proj := rfl
@[simp] theorem withOrders_trains : (s.withOrders v).trains = s.trains := rfl
@[simp] theorem withOrders_clock : (s.withOrders v).clock = s.clock := rfl
@[simp] theorem withOrders_dispatch : (s.withOrders v).dispatch = s.dispatch := rfl
@[simp] theorem withOrders_orders : (s.withOrders v).orders = v := rfl
@[simp] theorem withOrders_mode : (s.withOrders v).mode = s.mode := rfl
@[simp] theorem withOrders_limits : (s.withOrders v).limits = s.limits := rfl
@[simp] theorem withOrders_locked : (s.withOrders v).locked = s.locked := rfl
@[simp] theorem withOrders_supervision : (s.withOrders v).supervision = s.supervision := rfl
@[simp] theorem withOrders_port : (s.withOrders v).port = s.port := rfl
@[simp] theorem withOrders_por : (s.withOrders v).por = s.por := rfl
@[simp] theorem withOrders_due : (s.withOrders v).due = s.due := rfl
@[simp] theorem withOrders_freeCount : (s.withOrders v).freeCount = s.freeCount := rfl
@[simp] theorem withOrders_pending : (s.withOrders v).pending = s.pending := rfl
@[simp] theorem withOrders_withOrders (u : Orders) : (s.withOrders u).withOrders v = s.withOrders v := rfl
@[simp] theorem withOrders_self : s.withOrders s.orders = s := rfl
end withOrders

section withMode
variable (v : Mode)
@[simp] theorem withMode_account : (s.withMode v).account = s.account := rfl
@[simp] theorem withMode_heat : (s.withMode v).heat = s.heat := rfl
@[simp] theorem withMode_table : (s.withMode v).table = s.table := rfl
@[simp] theorem withMode_proj : (s.withMode v).proj = s.proj := rfl
@[simp] theorem withMode_trains : (s.withMode v).trains = s.trains := rfl
@[simp] theorem withMode_clock : (s.withMode v).clock = s.clock := rfl
@[simp] theorem withMode_dispatch : (s.withMode v).dispatch = s.dispatch := rfl
@[simp] theorem withMode_orders : (s.withMode v).orders = s.orders := rfl
@[simp] theorem withMode_mode : (s.withMode v).mode = v := rfl
@[simp] theorem withMode_limits : (s.withMode v).limits = s.limits := rfl
@[simp] theorem withMode_locked : (s.withMode v).locked = s.locked := rfl
@[simp] theorem withMode_supervision : (s.withMode v).supervision = s.supervision := rfl
@[simp] theorem withMode_port : (s.withMode v).port = s.port := rfl
@[simp] theorem withMode_por : (s.withMode v).por = s.por := rfl
@[simp] theorem withMode_due : (s.withMode v).due = s.due := rfl
@[simp] theorem withMode_freeCount : (s.withMode v).freeCount = s.freeCount := rfl
@[simp] theorem withMode_pending : (s.withMode v).pending = s.pending := rfl
@[simp] theorem withMode_withMode (u : Mode) : (s.withMode u).withMode v = s.withMode v := rfl
@[simp] theorem withMode_self : s.withMode s.mode = s := rfl
end withMode

section withLimits
variable (v : Limits)
@[simp] theorem withLimits_account : (s.withLimits v).account = s.account := rfl
@[simp] theorem withLimits_heat : (s.withLimits v).heat = s.heat := rfl
@[simp] theorem withLimits_table : (s.withLimits v).table = s.table := rfl
@[simp] theorem withLimits_proj : (s.withLimits v).proj = s.proj := rfl
@[simp] theorem withLimits_trains : (s.withLimits v).trains = s.trains := rfl
@[simp] theorem withLimits_clock : (s.withLimits v).clock = s.clock := rfl
@[simp] theorem withLimits_dispatch : (s.withLimits v).dispatch = s.dispatch := rfl
@[simp] theorem withLimits_orders : (s.withLimits v).orders = s.orders := rfl
@[simp] theorem withLimits_mode : (s.withLimits v).mode = s.mode := rfl
@[simp] theorem withLimits_limits : (s.withLimits v).limits = v := rfl
@[simp] theorem withLimits_locked : (s.withLimits v).locked = s.locked := rfl
@[simp] theorem withLimits_supervision : (s.withLimits v).supervision = s.supervision := rfl
@[simp] theorem withLimits_port : (s.withLimits v).port = s.port := rfl
@[simp] theorem withLimits_por : (s.withLimits v).por = s.por := rfl
@[simp] theorem withLimits_due : (s.withLimits v).due = s.due := rfl
@[simp] theorem withLimits_freeCount : (s.withLimits v).freeCount = s.freeCount := rfl
@[simp] theorem withLimits_pending : (s.withLimits v).pending = s.pending := rfl
@[simp] theorem withLimits_withLimits (u : Limits) : (s.withLimits u).withLimits v = s.withLimits v := rfl
@[simp] theorem withLimits_self : s.withLimits s.limits = s := rfl
end withLimits

section withLocked
variable (v : Bool)
@[simp] theorem withLocked_account : (s.withLocked v).account = s.account := rfl
@[simp] theorem withLocked_heat : (s.withLocked v).heat = s.heat := rfl
@[simp] theorem withLocked_table : (s.withLocked v).table = s.table := rfl
@[simp] theorem withLocked_proj : (s.withLocked v).proj = s.proj := rfl
@[simp] theorem withLocked_trains : (s.withLocked v).trains = s.trains := rfl
@[simp] theorem withLocked_clock : (s.withLocked v).clock = s.clock := rfl
@[simp] theorem withLocked_dispatch : (s.withLocked v).dispatch = s.dispatch := rfl
@[simp] theorem withLocked_orders : (s.withLocked v).orders = s.orders := rfl
@[simp] theorem withLocked_mode : (s.withLocked v).mode = s.mode := rfl
@[simp] theorem withLocked_limits : (s.withLocked v).limits = s.limits := rfl
@[simp] theorem withLocked_locked : (s.withLocked v).locked = v := rfl
@[simp] theorem withLocked_supervision : (s.withLocked v).supervision = s.supervision := rfl
@[simp] theorem withLocked_port : (s.withLocked v).port = s.port := rfl
@[simp] theorem withLocked_por : (s.withLocked v).por = s.por := rfl
@[simp] theorem withLocked_due : (s.withLocked v).due = s.due := rfl
@[simp] theorem withLocked_freeCount : (s.withLocked v).freeCount = s.freeCount := rfl
@[simp] theorem withLocked_pending : (s.withLocked v).pending = s.pending := rfl
@[simp] theorem withLocked_withLocked (u : Bool) : (s.withLocked u).withLocked v = s.withLocked v := rfl
@[simp] theorem withLocked_self : s.withLocked s.locked = s := rfl
end withLocked

section withSupervision
variable (v : Supervision)
@[simp] theorem withSupervision_account : (s.withSupervision v).account = s.account := rfl
@[simp] theorem withSupervision_heat : (s.withSupervision v).heat = s.heat := rfl
@[simp] theorem withSupervision_table : (s.withSupervision v).table = s.table := rfl
@[simp] theorem withSupervision_proj : (s.withSupervision v).proj = s.proj := rfl
@[simp] theorem withSupervision_trains : (s.withSupervision v).trains = s.trains := rfl
@[simp] theorem withSupervision_clock : (s.withSupervision v).clock = s.clock := rfl
@[simp] theorem withSupervision_dispatch : (s.withSupervision v).dispatch = s.dispatch := rfl
@[simp] theorem withSupervision_orders : (s.withSupervision v).orders = s.orders := rfl
@[simp] theorem withSupervision_mode : (s.withSupervision v).mode = s.mode := rfl
@[simp] theorem withSupervision_limits : (s.withSupervision v).limits = s.limits := rfl
@[simp] theorem withSupervision_locked : (s.withSupervision v).locked = s.locked := rfl
@[simp] theorem withSupervision_supervision : (s.withSupervision v).supervision = v := rfl
@[simp] theorem withSupervision_port : (s.withSupervision v).port = s.port := rfl
@[simp] theorem withSupervision_por : (s.withSupervision v).por = s.por := rfl
@[simp] theorem withSupervision_due : (s.withSupervision v).due = s.due := rfl
@[simp] theorem withSupervision_freeCount : (s.withSupervision v).freeCount = s.freeCount := rfl
@[simp] theorem withSupervision_pending : (s.withSupervision v).pending = s.pending := rfl
@[simp] theorem withSupervision_withSupervision (u : Supervision) : (s.withSupervision u).withSupervision v = s.withSupervision v := rfl
@[simp] theorem withSupervision_self : s.withSupervision s.supervision = s := rfl
end withSupervision

section withPort
variable (v : Port)
@[simp] theorem withPort_account : (s.withPort v).account = s.account := rfl
@[simp] theorem withPort_heat : (s.withPort v).heat = s.heat := rfl
@[simp] theorem withPort_table : (s.withPort v).table = s.table := rfl
@[simp] theorem withPort_proj : (s.withPort v).proj = s.proj := rfl
@[simp] theorem withPort_trains : (s.withPort v).trains = s.trains := rfl
@[simp] theorem withPort_clock : (s.withPort v).clock = s.clock := rfl
@[simp] theorem withPort_dispatch : (s.withPort v).dispatch = s.dispatch := rfl
@[simp] theorem withPort_orders : (s.withPort v).orders = s.orders := rfl
@[simp] theorem withPort_mode : (s.withPort v).mode = s.mode := rfl
@[simp] theorem withPort_limits : (s.withPort v).limits = s.limits := rfl
@[simp] theorem withPort_locked : (s.withPort v).locked = s.locked := rfl
@[simp] theorem withPort_supervision : (s.withPort v).supervision = s.supervision := rfl
@[simp] theorem withPort_port : (s.withPort v).port = v := rfl
@[simp] theorem withPort_por : (s.withPort v).por = s.por := rfl
@[simp] theorem withPort_due : (s.withPort v).due = s.due := rfl
@[simp] theorem withPort_freeCount : (s.withPort v).freeCount = s.freeCount := rfl
@[simp] theorem withPort_pending : (s.withPort v).pending = s.pending := rfl
@[simp] theorem withPort_withPort (u : Port) : (s.withPort u).withPort v = s.withPort v := rfl
@[simp] theorem withPort_self : s.withPort s.port = s := rfl
end withPort

section withPor
variable (v : ResetPins)
@[simp] theorem withPor_account : (s.withPor v).account = s.account := rfl
@[simp] theorem withPor_heat : (s.withPor v).heat = s.heat := rfl
@[simp] theorem withPor_table : (s.withPor v).table = s.table := rfl
@[simp] theorem withPor_proj : (s.withPor v).proj = s.proj := rfl
@[simp] theorem withPor_trains : (s.withPor v).trains = s.trains := rfl
@[simp] theorem withPor_clock : (s.withPor v).clock = s.clock := rfl
@[simp] theorem withPor_dispatch : (s.withPor v).dispatch = s.dispatch := rfl
@[simp] theorem withPor_orders : (s.withPor v).orders = s.orders := rfl
@[simp] theorem withPor_mode : (s.withPor v).mode = s.mode := rfl
@[simp] theorem withPor_limits : (s.withPor v).limits = s.limits := rfl
@[simp] theorem withPor_locked : (s.withPor v).locked = s.locked := rfl
@[simp] theorem withPor_supervision : (s.withPor v).supervision = s.supervision := rfl
@[simp] theorem withPor_port : (s.withPor v).port = s.port := rfl
@[simp] theorem withPor_por : (s.withPor v).por = v := rfl
@[simp] theorem withPor_due : (s.withPor v).due = s.due := rfl
@[simp] theorem withPor_freeCount : (s.withPor v).freeCount = s.freeCount := rfl
@[simp] theorem withPor_pending : (s.withPor v).pending = s.pending := rfl
@[simp] theorem withPor_withPor (u : ResetPins) : (s.withPor u).withPor v = s.withPor v := rfl
@[simp] theorem withPor_self : s.withPor s.por = s := rfl
end withPor

section withDue
variable (v : List Due)
@[simp] theorem withDue_account : (s.withDue v).account = s.account := rfl
@[simp] theorem withDue_heat : (s.withDue v).heat = s.heat := rfl
@[simp] theorem withDue_table : (s.withDue v).table = s.table := rfl
@[simp] theorem withDue_proj : (s.withDue v).proj = s.proj := rfl
@[simp] theorem withDue_trains : (s.withDue v).trains = s.trains := rfl
@[simp] theorem withDue_clock : (s.withDue v).clock = s.clock := rfl
@[simp] theorem withDue_dispatch : (s.withDue v).dispatch = s.dispatch := rfl
@[simp] theorem withDue_orders : (s.withDue v).orders = s.orders := rfl
@[simp] theorem withDue_mode : (s.withDue v).mode = s.mode := rfl
@[simp] theorem withDue_limits : (s.withDue v).limits = s.limits := rfl
@[simp] theorem withDue_locked : (s.withDue v).locked = s.locked := rfl
@[simp] theorem withDue_supervision : (s.withDue v).supervision = s.supervision := rfl
@[simp] theorem withDue_port : (s.withDue v).port = s.port := rfl
@[simp] theorem withDue_por : (s.withDue v).por = s.por := rfl
@[simp] theorem withDue_due : (s.withDue v).due = v := rfl
@[simp] theorem withDue_freeCount : (s.withDue v).freeCount = s.freeCount := rfl
@[simp] theorem withDue_pending : (s.withDue v).pending = s.pending := rfl
@[simp] theorem withDue_withDue (u : List Due) : (s.withDue u).withDue v = s.withDue v := rfl
@[simp] theorem withDue_self : s.withDue s.due = s := rfl
end withDue

section withFreeCount
variable (v : Nat)
@[simp] theorem withFreeCount_account : (s.withFreeCount v).account = s.account := rfl
@[simp] theorem withFreeCount_heat : (s.withFreeCount v).heat = s.heat := rfl
@[simp] theorem withFreeCount_table : (s.withFreeCount v).table = s.table := rfl
@[simp] theorem withFreeCount_proj : (s.withFreeCount v).proj = s.proj := rfl
@[simp] theorem withFreeCount_trains : (s.withFreeCount v).trains = s.trains := rfl
@[simp] theorem withFreeCount_clock : (s.withFreeCount v).clock = s.clock := rfl
@[simp] theorem withFreeCount_dispatch : (s.withFreeCount v).dispatch = s.dispatch := rfl
@[simp] theorem withFreeCount_orders : (s.withFreeCount v).orders = s.orders := rfl
@[simp] theorem withFreeCount_mode : (s.withFreeCount v).mode = s.mode := rfl
@[simp] theorem withFreeCount_limits : (s.withFreeCount v).limits = s.limits := rfl
@[simp] theorem withFreeCount_locked : (s.withFreeCount v).locked = s.locked := rfl
@[simp] theorem withFreeCount_supervision : (s.withFreeCount v).supervision = s.supervision := rfl
@[simp] theorem withFreeCount_port : (s.withFreeCount v).port = s.port := rfl
@[simp] theorem withFreeCount_por : (s.withFreeCount v).por = s.por := rfl
@[simp] theorem withFreeCount_due : (s.withFreeCount v).due = s.due := rfl
@[simp] theorem withFreeCount_freeCount : (s.withFreeCount v).freeCount = v := rfl
@[simp] theorem withFreeCount_pending : (s.withFreeCount v).pending = s.pending := rfl
@[simp] theorem withFreeCount_withFreeCount (u : Nat) : (s.withFreeCount u).withFreeCount v = s.withFreeCount v := rfl
@[simp] theorem withFreeCount_self : s.withFreeCount s.freeCount = s := rfl
end withFreeCount

section withPending
variable (v : List Instr)
@[simp] theorem withPending_account : (s.withPending v).account = s.account := rfl
@[simp] theorem withPending_heat : (s.withPending v).heat = s.heat := rfl
@[simp] theorem withPending_table : (s.withPending v).table = s.table := rfl
@[simp] theorem withPending_proj : (s.withPending v).proj = s.proj := rfl
@[simp] theorem withPending_trains : (s.withPending v).trains = s.trains := rfl
@[simp] theorem withPending_clock : (s.withPending v).clock = s.clock := rfl
@[simp] theorem withPending_dispatch : (s.withPending v).dispatch = s.dispatch := rfl
@[simp] theorem withPending_orders : (s.withPending v).orders = s.orders := rfl
@[simp] theorem withPending_mode : (s.withPending v).mode = s.mode := rfl
@[simp] theorem withPending_limits : (s.withPending v).limits = s.limits := rfl
@[simp] theorem withPending_locked : (s.withPending v).locked = s.locked := rfl
@[simp] theorem withPending_supervision : (s.withPending v).supervision = s.supervision := rfl
@[simp] theorem withPending_port : (s.withPending v).port = s.port := rfl
@[simp] theorem withPending_por : (s.withPending v).por = s.por := rfl
@[simp] theorem withPending_due : (s.withPending v).due = s.due := rfl
@[simp] theorem withPending_freeCount : (s.withPending v).freeCount = s.freeCount := rfl
@[simp] theorem withPending_pending : (s.withPending v).pending = v := rfl
@[simp] theorem withPending_withPending (u : List Instr) : (s.withPending u).withPending v = s.withPending v := rfl
@[simp] theorem withPending_self : s.withPending s.pending = s := rfl
end withPending

end Sys2Proof.Machine.State
end

