-- ==== Sys2Proof/Laws/Frames.lean ====
section
/-! SUPPORT. Frames: for each shared operation and each block's response, the fields it may touch. A proof that a field stands
cites the operation's lemma and never unfolds it. -/

namespace Sys2Proof.Machine

set_option Elab.async false

/-! ### Composing frames -/

theorem Touches.refl (s : State) : Touches [] s s := by intro f _; cases f <;> rfl

theorem Touches.mono {fs gs : List Field} {s t : State} (h : Touches fs s t) (hs : fs ⊆ gs) : Touches gs s t :=
  fun f hf => h f fun hm => hf (hs hm)

theorem State.agrees_trans {s t u : State} {f : Field} (h : s.agrees t f) (k : t.agrees u f) : s.agrees u f := by
  cases f <;> exact Eq.trans k h

theorem Touches.trans {fs : List Field} {s t u : State} (h : Touches fs s t) (k : Touches fs t u) : Touches fs s u :=
  fun f hf => State.agrees_trans (h f hf) (k f hf)

/-- Two steps, each with a frame inside gs. -/
theorem Touches.comp {fs₁ fs₂ gs : List Field} {s t u : State} (h : Touches fs₁ s t) (k : Touches fs₂ t u)
    (h₁ : fs₁ ⊆ gs := by decide) (h₂ : fs₂ ⊆ gs := by decide) : Touches gs s u :=
  (h.mono h₁).trans (k.mono h₂)

theorem Touches.same (fs : List Field) (s : State) : Touches fs s s := (Touches.refl s).mono (by simp)

/-- A fold of steps of one frame has that frame. -/
theorem Touches.foldl {α : Type} {fs : List Field} (f : State → α → State) (hf : ∀ s a, Touches fs s (f s a)) :
    ∀ (l : List α) (s : State), Touches fs s (l.foldl f s)
  | [], s => Touches.same fs s
  | a :: l, s => (hf s a).trans (Touches.foldl f hf l (f s a))

/-- What a frame leaves. -/
theorem Touches.get {fs : List Field} {s t : State} (h : Touches fs s t) (f : Field) (hf : f ∉ fs := by decide) :
    s.agrees t f := h f hf

section
variable (s : State)

theorem touches_withAccount (v : Account) : Touches [.account] s (s.withAccount v) := by
  intro f hf; cases f <;> first | rfl | exact absurd (List.mem_singleton.mpr rfl) hf
theorem touches_withHeat (v : Heat) : Touches [.heat] s (s.withHeat v) := by
  intro f hf; cases f <;> first | rfl | exact absurd (List.mem_singleton.mpr rfl) hf
theorem touches_withTable (v : Table) : Touches [.table] s (s.withTable v) := by
  intro f hf; cases f <;> first | rfl | exact absurd (List.mem_singleton.mpr rfl) hf
theorem touches_withProj (v : Projection) : Touches [.proj] s (s.withProj v) := by
  intro f hf; cases f <;> first | rfl | exact absurd (List.mem_singleton.mpr rfl) hf
theorem touches_withTrains (v : Trains) : Touches [.trains] s (s.withTrains v) := by
  intro f hf; cases f <;> first | rfl | exact absurd (List.mem_singleton.mpr rfl) hf
theorem touches_withClock (v : Clock) : Touches [.clock] s (s.withClock v) := by
  intro f hf; cases f <;> first | rfl | exact absurd (List.mem_singleton.mpr rfl) hf
theorem touches_withDispatch (v : Dispatch) : Touches [.dispatch] s (s.withDispatch v) := by
  intro f hf; cases f <;> first | rfl | exact absurd (List.mem_singleton.mpr rfl) hf
theorem touches_withOrders (v : Orders) : Touches [.orders] s (s.withOrders v) := by
  intro f hf; cases f <;> first | rfl | exact absurd (List.mem_singleton.mpr rfl) hf
theorem touches_withMode (v : Mode) : Touches [.mode] s (s.withMode v) := by
  intro f hf; cases f <;> first | rfl | exact absurd (List.mem_singleton.mpr rfl) hf
theorem touches_withLimits (v : Limits) : Touches [.limits] s (s.withLimits v) := by
  intro f hf; cases f <;> first | rfl | exact absurd (List.mem_singleton.mpr rfl) hf
theorem touches_withLocked (v : Bool) : Touches [.locked] s (s.withLocked v) := by
  intro f hf; cases f <;> first | rfl | exact absurd (List.mem_singleton.mpr rfl) hf
theorem touches_withSupervision (v : Supervision) : Touches [.supervision] s (s.withSupervision v) := by
  intro f hf; cases f <;> first | rfl | exact absurd (List.mem_singleton.mpr rfl) hf
theorem touches_withPort (v : Port) : Touches [.port] s (s.withPort v) := by
  intro f hf; cases f <;> first | rfl | exact absurd (List.mem_singleton.mpr rfl) hf
theorem touches_withPor (v : ResetPins) : Touches [.por] s (s.withPor v) := by
  intro f hf; cases f <;> first | rfl | exact absurd (List.mem_singleton.mpr rfl) hf
theorem touches_withDue (v : List Due) : Touches [.due] s (s.withDue v) := by
  intro f hf; cases f <;> first | rfl | exact absurd (List.mem_singleton.mpr rfl) hf
theorem touches_withFreeCount (v : Nat) : Touches [.freeCount] s (s.withFreeCount v) := by
  intro f hf; cases f <;> first | rfl | exact absurd (List.mem_singleton.mpr rfl) hf
theorem touches_withPending (v : List Instr) : Touches [.pending] s (s.withPending v) := by
  intro f hf; cases f <;> first | rfl | exact absurd (List.mem_singleton.mpr rfl) hf
/-! ### Shared operations -/

theorem setTrain_touches (t : TrainIx) (v : Train) : Touches [.trains] s (s.setTrain t v) := touches_withTrains s _
theorem setStore_touches (i : StoreIx) (v : Store) : Touches [.heat] s (s.setStore i v) := touches_withHeat s _
theorem setSummary_touches (v : HeatSummary) : Touches [.heat] s (s.setSummary v) := touches_withHeat s _
theorem setAct_touches (d : Dir) (v : Activation) : Touches [.orders] s (s.setAct d v) := by
  cases d <;> exact touches_withOrders s _
theorem setEntries_touches (v : List Entry) : Touches [.table] s (s.setEntries v) := touches_withTable s _
theorem raise_touches (n : Notice) : Touches [.port] s (raise n s) := touches_withPort s _
theorem answer_touches (c : Byte) (r : Result) (p : List Byte) : Touches [.port] s (answer c r p s) := touches_withPort s _
theorem discardFrame_touches : Touches [.port] s (discardFrame s) := touches_withPort s _
theorem acceptFrame_touches : Touches [.port] s (acceptFrame s) := touches_withPort s _
theorem reloadTimer_touches : Touches [.supervision] s (reloadTimer s) := touches_withSupervision s _
theorem refreshAny_touches : Touches [.supervision] s (refreshAny s) := by
  unfold refreshAny; split
  · exact reloadTimer_touches s
  · exact Touches.same _ s
theorem refreshReading_touches : Touches [.supervision] s (refreshReading s) := by
  unfold refreshReading; split
  · exact reloadTimer_touches s
  · exact Touches.same _ s
theorem accepted_touches : Touches [.port, .supervision] s s.accepted :=
  (acceptFrame_touches s).comp (refreshAny_touches _)

/-- The frame of a request is the port, the supervision timer and its owner's. -/
theorem takeRequest_touches {fs : List Field} (r : Request) (h : Head) (owner : State → State)
    (hp : .port ∈ fs) (hs : .supervision ∈ fs) (ho : ∀ u, Touches fs u (owner u)) :
    Touches fs s (takeRequest r h owner s) := by
  have ha : Touches fs s s.accepted := (accepted_touches s).mono (by simp [hp, hs])
  have hr : ∀ u c r p, Touches fs u (answer c r p u) := fun u c r p => (answer_touches u c r p).mono (by simp [hp])
  unfold takeRequest; split
  · exact Touches.same _ s
  · split
    · exact (discardFrame_touches s).mono (by simp [hp])
    · split
      · exact ha.trans (hr _ _ _ _)
      · split
        · exact ha.trans (hr _ _ _ _)
        · exact ha.trans (ho _)

/-- The frame of an event is what it does where it is taken. -/
theorem unlessHeld_touches {fs : List Field} (f : State → State) (hf : Touches fs s (f s)) : Touches fs s (unlessHeld f s) := by
  unfold unlessHeld; split
  · exact Touches.same _ s
  · exact hf

theorem assignStore_touches (t : TrainIx) : Touches [.heat] s (assignStore t s) := by
  unfold assignStore; split
  · exact Touches.same _ s
  · exact setStore_touches s _ _
theorem releaseStore_touches (t : TrainIx) : Touches [.heat] s (releaseStore t s) := touches_withHeat s _
theorem recomputePools_touches : Touches [.heat] s (recomputePools s) := setSummary_touches s _
theorem startWalkAt_touches (n : Nat) : Touches [.proj] s (startWalkAt n s) := touches_withProj s _
theorem startWalk_touches : Touches [.proj] s (startWalk s) := startWalkAt_touches s _
theorem endTrial_touches : Touches [.proj] s (endTrial s) := touches_withProj s _
theorem answerInFlight_touches (r : Result) (p : List Byte) : Touches [.port] s (answerInFlight r p s) := by
  unfold answerInFlight; split
  · exact Touches.same _ s
  · exact answer_touches s _ _ _
theorem countRestart_touches : Touches [.proj, .port] s (countRestart s) := by
  unfold countRestart; split
  · exact Touches.same _ s
  all_goals
    split
    · exact (touches_withProj s _).mono (by decide)
    · exact (endTrial_touches s).comp (answerInFlight_touches _ _ _)
/-- A basis change acts on the engine, and on the port where it ends a trial (R77, R78, R94). -/
theorem basisChangeAt_touches (n : Nat) : Touches [.proj, .port] s (basisChangeAt n s) := by
  unfold basisChangeAt; split
  · split
    · exact (startWalkAt_touches s n).mono (by decide)
    · exact Touches.same _ s
  all_goals exact (startWalkAt_touches s n).comp (countRestart_touches _)
theorem basisChange_touches : Touches [.proj, .port] s (basisChange s) := basisChangeAt_touches s _
theorem closeBasisChange_touches : Touches [.proj, .port] s (closeBasisChange s) := basisChangeAt_touches s _

/-! ### The train sequencer -/

/-- What a transition of a train may touch: the record, the stores, and through a change of class the engine. -/
abbrev trainFields : List Field := [.trains, .heat, .proj, .port]

theorem putTrainCovered_touches (t : TrainIx) (v : Train) : Touches [.trains] s (putTrainCovered t v s) :=
  setTrain_touches s _ _
theorem putTrain_touches (t : TrainIx) (v : Train) : Touches [.trains, .proj, .port] s (putTrain t v s) := by
  unfold putTrain; split
  · exact (setTrain_touches s _ _).mono (by decide)
  · exact (setTrain_touches s _ _).comp (basisChange_touches _)
theorem enterReady_touches (t : TrainIx) : Touches [.trains, .proj, .port] s (enterReady t s) :=
  (putTrain_touches s _ _).comp (raise_touches _ _)
theorem stopFrom_touches (t : TrainIx) (v : Train) : Touches trainFields s (stopFrom t v s) :=
  (releaseStore_touches s t).comp (putTrain_touches _ _ _)
theorem enterStopping_touches (t : TrainIx) : Touches trainFields s (enterStopping t s) := stopFrom_touches s _ _
theorem enterCooldown_touches (t : TrainIx) : Touches [.trains, .proj, .port] s (enterCooldown t s) :=
  (putTrain_touches s _ _).comp (raise_touches _ _)
theorem enterIdle_touches (t : TrainIx) : Touches [.trains, .proj, .port] s (enterIdle t s) :=
  (putTrain_touches s _ _).comp (raise_touches _ _)
theorem expire_touches (t : TrainIx) : Touches trainFields s (expire t s) := by
  unfold expire; split
  · exact (enterReady_touches s t).mono (by decide)
  · exact enterStopping_touches s t
  · exact (enterCooldown_touches s t).mono (by decide)
  · exact (enterIdle_touches s t).mono (by decide)
  all_goals exact (setTrain_touches s _ _).mono (by decide)
theorem requestStart_touches (t : TrainIx) : Touches [.trains, .proj, .port] s (requestStart t s) := by
  unfold requestStart; dsimp only
  split
  · exact Touches.same _ s
  · split
    · split
      · exact Touches.same _ s
      · exact (setTrain_touches s _ _).comp (raise_touches _ _)
    · exact putTrain_touches s _ _
theorem requestLoad_touches (t : TrainIx) : Touches trainFields s (requestLoad t s) := by
  unfold requestLoad; split
  · exact Touches.comp (Touches.comp (gs := trainFields) (putTrain_touches s t _) (assignStore_touches _ t))
      (raise_touches _ _)
  · exact Touches.same _ s
theorem requestSetpoint_touches (t : TrainIx) (kw : Nat) : Touches [.trains] s (requestSetpoint t kw s) := by
  unfold requestSetpoint; dsimp only
  split
  · exact Touches.same _ s
  · exact setTrain_touches s _ _
theorem requestUnload_touches (t : TrainIx) : Touches trainFields s (requestUnload t s) := by
  unfold requestUnload; split
  · exact Touches.comp (Touches.comp (gs := trainFields) (releaseStore_touches s t) (putTrain_touches _ t _))
      (raise_touches _ _)
  · exact Touches.same _ s
theorem requestStop_touches (t : TrainIx) : Touches trainFields s (requestStop t s) := by
  unfold requestStop; split
  · exact enterStopping_touches s t
  · exact Touches.same _ s
theorem safeStop_touches (t : TrainIx) : Touches trainFields s (safeStop t s) := by
  unfold safeStop; split
  · exact enterStopping_touches s t
  · exact Touches.same _ s
theorem excursionStop_touches (t : TrainIx) : Touches trainFields s (excursionStop t s) := by
  unfold excursionStop; split
  · exact stopFrom_touches s _ _
  · exact Touches.same _ s
theorem eachTrain_touches {fs : List Field} (f : TrainIx → State → State) (hf : ∀ t u, Touches fs u (f t u))
    (ts : List TrainIx) : Touches fs s (eachTrain f ts s) := Touches.foldl _ (fun u t => hf t u) ts s
theorem excursionChanged_touches (side : Side) (e : Excursion) : Touches trainFields s (excursionChanged side e s) := by
  unfold excursionChanged; split
  · exact eachTrain_touches s _ (fun t u => excursionStop_touches u t) _
  · exact Touches.same _ s
  · exact eachTrain_touches s _ (fun t u => (setTrain_touches u t _).mono (by decide)) _
theorem countTrip_touches (t : TrainIx) : Touches trainFields s (countTrip t s) := by
  unfold countTrip; dsimp only
  exact Touches.comp
    (Touches.comp (gs := trainFields)
      (Touches.comp (gs := trainFields) (releaseStore_touches s t) (putTrainCovered_touches _ t _)) (raise_touches _ _))
    (basisChange_touches _)
theorem tripAssert_touches (t : TrainIx) : Touches trainFields s (tripAssert t s) := by
  unfold tripAssert; dsimp only
  split
  · exact Touches.same _ s
  · split
    all_goals first
      | exact (setTrain_touches s _ _).mono (by decide)
      | exact (setTrain_touches s t _).comp (countTrip_touches _ t)
theorem countTimer_touches (t : TrainIx) : Touches trainFields s (countTimer t s) := by
  unfold countTimer; dsimp only
  split
  · exact Touches.same _ s
  · split
    · exact expire_touches s t
    · exact (setTrain_touches s _ _).mono (by decide)
theorem trainSecond_touches (t : TrainIx) : Touches trainFields s (trainSecond t s) :=
  (countTimer_touches s t).comp (putTrain_touches _ t _)
theorem trainsSecond_touches : Touches trainFields s (trainsSecond s) := by
  have h : Touches trainFields s _ := eachTrain_touches s trainSecond (fun t u => trainSecond_touches u t) TrainIx.all
  exact h.comp (touches_withTrains _ _)
theorem trainsNewDay_touches : Touches [.trains] s (trainsNewDay s) := touches_withTrains s _

/-! ### The order receiver -/

theorem releaseAct_touches (d : Dir) (w : ReleaseReason) : Touches [.orders, .port] s (releaseAct d w s) := by
  unfold releaseAct; dsimp only
  split
  · exact Touches.same _ s
  · exact (setAct_touches s _ _).mono (by decide)
  · split
    · exact (setAct_touches s _ _).mono (by decide)
    · exact (setAct_touches s _ _).comp (raise_touches _ _)
theorem releaseBoth_touches (w : ReleaseReason) : Touches [.orders, .port] s (releaseBoth w s) :=
  (releaseAct_touches s .up w).trans (releaseAct_touches _ .down w)
theorem eachDir_touches {fs : List Field} (f : Dir → State → State) (hf : ∀ d u, Touches fs u (f d u)) :
    Touches fs s (eachDir f s) := (hf .up s).trans (hf .down _)
theorem endOnOther_touches (p : Option (Fin 8)) (d : Dir) : Touches [.orders, .port] s (endOnOther p d s) := by
  unfold endOnOther; split
  · exact releaseAct_touches s _ _
  · exact Touches.same _ s
theorem endOnPattern_touches (p : Fin 8) (d : Dir) : Touches [.orders, .port] s (endOnPattern p d s) := by
  unfold endOnPattern; split
  · exact releaseAct_touches s _ _
  · exact Touches.same _ s
theorem endConfirming_touches (p : Fin 8) (d : Dir) : Touches [.orders, .port] s (endConfirming p d s) := by
  unfold endConfirming; split
  · exact releaseAct_touches s _ _
  · exact Touches.same _ s
theorem moveOwn_touches (d : Dir) (p : Fin 8) (l : Nat) : Touches [.orders, .port] s (moveOwn d p l s) := by
  unfold moveOwn; dsimp only
  split
  · split
    · exact (setAct_touches s _ _).mono (by decide)
    · exact (setAct_touches s _ _).comp (raise_touches _ _)
  · exact (setAct_touches s _ _).comp (raise_touches _ _)
  · exact (setAct_touches s _ _).mono (by decide)
theorem activate_touches (d : Dir) (p : Fin 8) (l : Nat) : Touches [.orders, .port] s (activate d p l s) := by
  unfold activate; split
  · exact releaseAct_touches s _ _
  · split
    · exact (raise_touches s _).mono (by decide)
    · exact (releaseAct_touches s _ _).trans (moveOwn_touches _ _ _ _)
theorem carryOut_touches (p : Fin 8) (l : Nat) : Touches [.orders, .port] s (carryOut p l s) := by
  unfold carryOut; split
  · exact activate_touches s _ _ _
  · exact activate_touches s _ _ _
  · exact releaseAct_touches s _ _
  · exact releaseAct_touches s _ _
  · exact releaseBoth_touches s _
theorem takeTelegram_touches (a b : Byte) (l : Nat) : Touches [.orders, .port] s (takeTelegram a b l s) := by
  unfold takeTelegram; dsimp only
  split
  · exact Touches.trans (Touches.comp (gs := [.orders, .port]) (touches_withOrders s _) (touches_withOrders _ _))
      (eachDir_touches _ _ fun d u => endOnOther_touches u _ d)
  · exact ((((touches_withOrders s _).mono (by decide : _ ⊆ [Field.orders, .port])).trans
      (eachDir_touches _ _ fun d u => endOnOther_touches u _ d)).trans
      (eachDir_touches _ _ fun d u => endOnPattern_touches u _ d)).trans
      (eachDir_touches _ _ fun d u => endConfirming_touches u _ d) |>.trans (carryOut_touches _ _ _)
theorem setAssembler_touches (v : Assembler) : Touches [.orders] s (s.setAssembler v) := touches_withOrders s _
theorem discardTelegram_touches : Touches [.orders] s (discardTelegram s) := touches_withOrders s _
theorem checkTelegram_touches (a b l c : Byte) : Touches [.orders, .port] s (checkTelegram a b l c s) := by
  unfold checkTelegram; split
  · exact (setAssembler_touches s _).comp (takeTelegram_touches _ _ _ _)
  · exact (discardTelegram_touches s).mono (by decide)
theorem takeOrderByte_touches (v : Byte) (f : Bool) : Touches [.orders, .port] s (takeOrderByte v f s) := by
  unfold takeOrderByte; split
  · split
    · exact (setAssembler_touches s _).mono (by decide)
    · exact Touches.same _ s
  · split
    · exact (discardTelegram_touches s).mono (by decide)
    · split
      · exact checkTelegram_touches s _ _ _ _
      · exact (setAssembler_touches s _).mono (by decide)
theorem actSecond_touches (d : Dir) : Touches [.orders, .port] s (actSecond d s) := by
  unfold actSecond; dsimp only
  split
  · exact Touches.same _ s
  · split
    · exact releaseAct_touches s _ _
    · exact (setAct_touches s _ _).mono (by decide)
  · split
    · split
      · exact releaseAct_touches s _ _
      · exact (setAct_touches s _ _).mono (by decide)
    · exact Touches.same _ s
theorem ordersSecond_touches : Touches [.orders, .port] s (ordersSecond s) :=
  eachDir_touches s _ fun d u => actSecond_touches u d
theorem meterActivation_touches (z : Int) : Touches [.orders] s (meterActivation z s) := by
  unfold meterActivation; split
  · exact Touches.same _ s
  · dsimp only; split
    · exact setAct_touches s _ _
    · exact Touches.same _ s
theorem closeAct_touches (n : Nat) (d : Dir) : Touches [.orders, .port] s (closeAct n d s) := by
  unfold closeAct; dsimp only
  split
  · exact Touches.same _ s
  · split
    · exact (setAct_touches s _ _).comp (raise_touches _ _)
    · exact (setAct_touches s _ _).mono (by decide)
theorem checkBacking_touches (n : Nat) (d : Dir) : Touches [.orders, .port] s (checkBacking n d s) := by
  unfold checkBacking; split
  · exact releaseAct_touches s _ _
  · exact Touches.same _ s
theorem ordersBoundary_touches (m n : Nat) : Touches [.orders, .port] s (ordersBoundary m n s) :=
  (eachDir_touches s _ fun d u => checkBacking_touches u n d).trans
    (eachDir_touches _ _ fun d u => closeAct_touches u m d)
theorem setActClosing_touches (n : Nat) (d : Dir) : Touches [.orders] s (setActClosing n d s) := setAct_touches s _ _
theorem restartOrders_touches : Touches [.orders, .port] s (restartOrders s) :=
  (releaseBoth_touches s _).comp (touches_withOrders _ _)

/-! ### Modes and supervision -/

/-- What a change of mode may touch. -/
abbrev modeFields : List Field := [.mode, .supervision, .orders, .trains, .heat, .proj, .port]

theorem enteredSafe_touches : Touches [.orders, .trains, .heat, .proj, .port] s (enteredSafe s) := by
  have h : Touches [.orders, .trains, .heat, .proj, .port] s _ :=
    (eachTrain_touches s safeStop (fun t u => safeStop_touches u t) TrainIx.all).comp (releaseBoth_touches _ .safe)
  exact h.comp (touches_withPort _ _)
theorem changeMode_touches (m : Mode) : Touches modeFields s (changeMode m s) := by
  have h : Touches modeFields s _ := (touches_withMode s m).comp (raise_touches _ .mode)
  unfold changeMode; dsimp only
  split
  · exact h.comp (enteredSafe_touches _)
  · exact h.comp (reloadTimer_touches _)
  · exact h.comp (reloadTimer_touches _)
  · exact h
theorem supervisionFailure_touches : Touches modeFields s (supervisionFailure s) := by
  have h : Touches modeFields s (countFailure s) := (touches_withSupervision s _).mono (by decide)
  unfold supervisionFailure; dsimp only
  split
  · exact h.trans (changeMode_touches _ _)
  · exact h.trans (changeMode_touches _ _)
  · exact h.trans (changeMode_touches _ _)
  · exact h
  · exact h
theorem countSupervision_touches : Touches modeFields s (countSupervision s) := by
  have h : Touches modeFields s _ := (touches_withSupervision s
    { s.supervision with remaining := s.supervision.remaining - 1 }).mono (by decide)
  unfold countSupervision; dsimp only
  split
  · exact h.trans (supervisionFailure_touches _)
  · exact h
theorem supervisionSecond_touches : Touches modeFields s (supervisionSecond s) := by
  unfold supervisionSecond; split
  · exact countSupervision_touches s
  · exact Touches.same _ s
theorem clearFailures_touches : Touches [.supervision] s (clearFailures s) := touches_withSupervision s _
theorem restartSupervision_touches : Touches [.supervision] s (restartSupervision s) :=
  (clearFailures_touches s).trans (reloadTimer_touches _)
theorem capacityWritten_touches (i : StoreIx) : Touches [.heat] s (capacityWritten i s) :=
  (setStore_touches s _ _).trans (recomputePools_touches _)
theorem writeParam_touches (p : Param) (v : Nat) : Touches [.limits, .heat] s (writeParam p v s) := by
  have h : Touches [.limits, .heat] s _ := (touches_withLimits s (s.limits.set p v)).mono (by decide)
  unfold writeParam; dsimp only
  split
  · exact h.comp (capacityWritten_touches _ _)
  · exact h

/-! ### The account -/

theorem setExcursion_touches (side : Side) (e : Excursion) :
    Touches [.account, .trains, .heat, .proj, .port] s (setExcursion side e s) := by
  unfold setExcursion; dsimp only
  split
  · exact (touches_withAccount s _).mono (by decide)
  · exact (touches_withAccount s _).comp (excursionChanged_touches _ _ _)
theorem judgeExcursions_touches : Touches [.account, .trains, .heat, .proj, .port] s (judgeExcursions s) :=
  (setExcursion_touches s _ _).trans (setExcursion_touches _ _ _)
theorem baseAccount_touches : Touches [.account, .proj, .port] s (baseAccount s) := by
  unfold baseAccount; split
  · exact Touches.same _ s
  · exact (touches_withAccount s _).comp (basisChange_touches _)
theorem accountSecond_touches : Touches [.account] s (accountSecond s) :=
  (touches_withAccount s _).trans (touches_withAccount _ _)
theorem accountClose_touches : Touches [.account, .proj, .port] s (accountClose s) := by
  unfold accountClose; split
  · exact (touches_withAccount s _).mono (by decide)
  · dsimp only
    split
    · exact Touches.comp (Touches.comp (gs := [.account, .port]) (touches_withAccount s _) (raise_touches _ _))
        (closeBasisChange_touches _)
    · exact (touches_withAccount s _).comp (closeBasisChange_touches _)

/-! ### The stores -/

theorem moveTrains_touches (i j : StoreIx) : Touches [.heat] s (moveTrains i j s) :=
  (setStore_touches s _ _).trans (setStore_touches _ _ _)
theorem moveHeat_touches : Touches [.heat] s (moveHeat s) := touches_withHeat s _
theorem handleFull_touches (v : PerStore Nat) (i : StoreIx) (sr : State × Nat) :
    Touches [.heat] sr.1 (handleFull v i sr).1 := by
  unfold handleFull; dsimp only
  split
  · split
    · exact Touches.same _ _
    · exact (moveTrains_touches _ _ _).trans (setStore_touches _ _ _)
  · exact Touches.same _ _
theorem handleLow_touches (i : StoreIx) : Touches [.heat] s (handleLow i s) := by
  unfold handleLow; split
  · split
    · exact Touches.same _ s
    · exact moveTrains_touches s _ _
  · exact Touches.same _ s
theorem assignLate_touches (t : TrainIx) : Touches [.heat] s (assignLate t s) := by
  unfold assignLate; split
  · exact assignStore_touches s t
  · exact Touches.same _ s
theorem storesSecond_touches : Touches [.heat] s (storesSecond s) := by
  have hf : ∀ (v : PerStore Nat) (l : List StoreIx) (sr : State × Nat),
      Touches [.heat] sr.1 (l.foldl (fun sr i => handleFull v i sr) sr).1 := by
    intro v l; induction l with
    | nil => exact fun sr => Touches.same _ _
    | cons i l ih => exact fun sr => (handleFull_touches v i sr).trans (ih _)
  have h1 : Touches [.heat] s _ := (moveHeat_touches s).trans (hf (PerStore.ofFn (overflowOf s)) StoreIx.all (moveHeat s, 0))
  have h2 : Touches [.heat] s _ := h1.trans (Touches.foldl (fun s i => handleLow i s) (fun u i => handleLow_touches u i) StoreIx.all _)
  have h3 : Touches [.heat] s _ := h2.trans (eachTrain_touches _ assignLate (fun t u => assignLate_touches u t) TrainIx.all)
  have h4 : Touches [.heat] s _ := h3.trans (recomputePools_touches _)
  exact (h4.trans (setSummary_touches _ _)).trans (setSummary_touches _ _)
theorem storesLoss_touches : Touches [.heat] s (storesLoss s) := touches_withHeat s _
theorem serviceStore_touches (i : StoreIx) (b : Bool) : Touches [.heat, .proj, .port] s (serviceStore i b s) := by
  have h : Touches [.heat] s _ := (setStore_touches s i { s.store i with isolated := b }).trans (recomputePools_touches _)
  exact h.comp (basisChange_touches _)

/-! ### The dispatcher -/

/-- What the dispatcher's requests may touch. -/
abbrev dispatchFields : List Field := [.dispatch, .orders, .trains, .heat, .proj, .port]

theorem formTarget_touches : Touches [.dispatch] s (formTarget s) := touches_withDispatch s _
theorem formCommit_touches : Touches [.dispatch] s (formCommit s) := touches_withDispatch s _
theorem setHold_touches (t : TrainIx) (b : Bool) : Touches [.dispatch] s (setHold t b s) := touches_withDispatch s _
theorem clearHolds_touches : Touches [.dispatch] s (clearHolds s) := touches_withDispatch s _
theorem stopOrUnload_touches (t : TrainIx) : Touches dispatchFields s (stopOrUnload t s) := by
  unfold stopOrUnload; dsimp only
  have h1 : Touches dispatchFields s (requestStop t s) := (requestStop_touches s t).mono (by decide)
  split
  · exact h1
  · have h2 : Touches dispatchFields s _ := h1.comp (requestUnload_touches _ t)
    split
    · exact h2.comp (setHold_touches _ _ _)
    · exact h2
theorem releaseTrain_touches (t : TrainIx) : Touches dispatchFields s (releaseTrain t s) := by
  unfold releaseTrain; dsimp only
  split
  · split
    · exact Touches.same _ s
    · exact stopOrUnload_touches s t
  · split
    · exact Touches.same _ s
    · exact (requestStop_touches s t).mono (by decide)
  all_goals exact Touches.same _ s
theorem releaseUnwanted_touches : Touches dispatchFields s (releaseUnwanted s) :=
  (eachTrain_touches s releaseTrain (fun t u => releaseTrain_touches u t) _).comp (clearHolds_touches _)
theorem startOrLoad_touches (t : TrainIx) : Touches dispatchFields s (startOrLoad t s) := by
  unfold startOrLoad; split
  · split
    · exact (requestStart_touches s t).mono (by decide)
    · exact Touches.same _ s
  · split
    · exact (requestLoad_touches s t).mono (by decide)
    · exact Touches.same _ s
  all_goals exact Touches.same _ s
theorem startAhead_touches (z : Int) (t : TrainIx) : Touches [.trains, .proj, .port] s (startAhead z t s) := by
  unfold startAhead; split
  · exact requestStart_touches s t
  · exact Touches.same _ s
theorem aheadOfRows_touches : ∀ (rs : List Row) (x : State × List TrainIx),
    Touches [.trains, .proj, .port] x.1 (rs.foldl aheadOfRow x).1
  | [], _ => Touches.same _ _
  | r :: rs, x => by
    have h : Touches [.trains, .proj, .port] x.1 (aheadOfRow x r).1 :=
      eachTrain_touches x.1 _ (fun t u => startAhead_touches u _ t) _
    exact h.trans (aheadOfRows_touches rs (aheadOfRow x r))
theorem lookAhead_touches : Touches dispatchFields s (lookAhead s) := by
  unfold lookAhead; split
  · exact (aheadOfRows_touches (rowsAhead s) (s, [])).comp (touches_withDispatch _ _)
  · exact (touches_withDispatch s _).mono (by decide)
theorem computeShares_touches (l : List TrainIx) : Touches [.dispatch] s (computeShares l s) := touches_withDispatch s _
theorem rampTrain_touches (t : TrainIx) : Touches [.trains] s (rampTrain t s) := by
  unfold rampTrain; split
  · exact requestSetpoint_touches s _ _
  · exact Touches.same _ s
theorem meterSecond_touches : Touches [.dispatch, .orders] s (meterSecond s) :=
  (touches_withDispatch s _).comp (meterActivation_touches _ _)
theorem dispatchSecond_touches : Touches dispatchFields s (dispatchSecond s) := by
  unfold dispatchSecond; dsimp only
  have h1 : Touches dispatchFields s (formCommit (formTarget s)) := (formTarget_touches s).comp (formCommit_touches _)
  refine Touches.comp (gs := dispatchFields) (Touches.comp (gs := dispatchFields) (Touches.comp (gs := dispatchFields)
    (Touches.trans (Touches.trans (h1.trans (releaseUnwanted_touches _)) ?_) (lookAhead_touches _))
    (computeShares_touches _ _)) (eachTrain_touches _ rampTrain (fun t u => rampTrain_touches u t) _)) (meterSecond_touches _)
  exact eachTrain_touches _ startOrLoad (fun t u => startOrLoad_touches u t) _
theorem dispatchClose_touches (n : Nat) : Touches [.dispatch] s (dispatchClose n s) := by
  unfold dispatchClose; split
  · exact Touches.same _ s
  · exact touches_withDispatch s _

/-! ### The table -/

theorem putEntry_touches (e : Entry) : Touches [.table] s (putEntry e s) := setEntries_touches s _
theorem freeSlot_touches (n : Nat) : Touches [.table] s (freeSlot n s) := setEntries_touches s _
theorem startTrial_touches (c : Candidate) : Touches [.proj] s (startTrial c s) := touches_withProj s _
theorem handCandidate_touches (c : Candidate) (f : InFlight) : Touches [.proj, .port] s (handCandidate c f s) :=
  Touches.comp (Touches.comp (gs := [.proj, .port]) (touches_withProj s _) (touches_withPort _ _)) (startTrial_touches _ c)
theorem storeEntry_touches (e : Entry) : Touches [.table, .freeCount] s (storeEntry e s) :=
  (touches_withTable s _).comp (touches_withFreeCount _ _)
theorem completeAdmit_touches (e : Entry) : Touches [.table, .freeCount, .proj, .port] s (completeAdmit e s) := by
  unfold completeAdmit; split
  · exact (answer_touches s _ _ _).mono (by decide)
  · exact Touches.comp (Touches.comp (gs := [.table, .freeCount, .proj, .port]) (storeEntry_touches s _)
      (basisChange_touches _)) (answer_touches _ _ _ _)
theorem recoverIf_touches (st : EntryStatus) : Touches [.port] s (recoverIf st s) := by
  unfold recoverIf; split
  · exact raise_touches s _
  · exact Touches.same _ s
theorem completeAmend_touches (c : Client) (n : Nat) (m : Amendment) :
    Touches [.table, .proj, .port] s (completeAmend c n m s) := by
  have hr : ∀ (r : Result), Touches [.table, .proj, .port] s (answer Request.amend.code r [] s) :=
    fun r => (answer_touches s _ _ _).mono (by decide)
  unfold completeAmend; split
  · exact hr _
  · split
    · exact hr _
    · split
      · exact hr _
      · exact Touches.comp
          (Touches.comp (gs := [.table, .proj, .port])
            (Touches.comp (gs := [.table, .port]) (putEntry_touches s _) (recoverIf_touches _ _)) (basisChange_touches _))
          (answer_touches _ _ _ _)
theorem takeClosings_touches (n : Nat) : Touches [.dispatch, .orders, .port] s (takeClosings n s) :=
  (dispatchClose_touches s n).comp (eachDir_touches _ _ fun d u => closeAct_touches u n d)
theorem tableBoundary_touches (m n : Nat) : Touches [.table, .dispatch, .orders, .port] s (tableBoundary m n s) := by
  unfold tableBoundary; dsimp only
  split
  · exact Touches.comp (Touches.comp (gs := [.table, .dispatch, .orders, .port]) (takeClosings_touches s m)
      (setEntries_touches _ _)) (raise_touches _ _)
  · exact (takeClosings_touches s m).comp (setEntries_touches _ _)
theorem applyOutcome_touches (o : Outcome) : Touches [.table, .port] s (applyOutcome o s) := by
  have h : Touches [.table, .port] s _ := (setEntries_touches s (s.table.entries.map (judged o))).mono (by decide)
  unfold applyOutcome; dsimp only
  split <;> split
  · exact Touches.comp (Touches.comp (gs := [.table, .port]) h (raise_touches _ _)) (raise_touches _ _)
  · exact h.comp (raise_touches _ _)
  · exact h.comp (raise_touches _ _)
  · exact h

/-! ### The projection engine and the clock -/

theorem releaseTrial_touches : Touches [.proj] s (releaseTrial s) := by
  unfold releaseTrial; split
  · exact startTrial_touches s _
  all_goals exact Touches.same _ s
theorem fullWalkCompletes_touches : Touches [.table, .proj, .port] s (fullWalkCompletes s) := by
  unfold fullWalkCompletes; split
  · exact Touches.same _ s
  · exact Touches.comp (Touches.comp (gs := [.table, .proj, .port])
      (Touches.comp (gs := [.table, .proj, .port]) (touches_withProj s _) (applyOutcome_touches _ _)) (raise_touches _ _))
      (releaseTrial_touches _)
theorem completeAccepted_touches (c : Candidate) : Touches [.table, .freeCount, .proj, .port] s (completeAccepted c s) := by
  unfold completeAccepted; split
  · exact Touches.same _ s
  · exact completeAdmit_touches s _
  · exact (completeAmend_touches s _ _ _).mono (by decide)
theorem trialCompletes_touches : Touches [.table, .freeCount, .proj, .port] s (trialCompletes s) := by
  unfold trialCompletes; split
  · unfold judgeTrial; split
    · exact (endTrial_touches s).comp (answerInFlight_touches _ _ _)
    · exact (endTrial_touches s).comp (completeAccepted_touches _ _)
  · exact Touches.same _ s
theorem restartEngine_touches : Touches [.proj] s (restartEngine s) := by
  unfold restartEngine; split
  · exact Touches.same _ s
  all_goals exact startWalk_touches s
theorem setCursor_touches (c : Cursor) : Touches [.port] s (s.setCursor c) := touches_withPort s _
theorem endInterval_touches : Touches [.clock] s (endInterval s) := touches_withClock s _
theorem clockSecond_touches : Touches [.clock] s (clockSecond s) := by
  unfold clockSecond; split
  · exact endInterval_touches s
  · split
    · exact touches_withClock s _
    · exact Touches.same _ s
theorem keepCapture_touches : Touches [.clock] s (keepCapture s) := touches_withClock s _
theorem restartCount_touches : Touches [.clock] s (restartCount s) := touches_withClock s _
/-! ### Responses (R69, R90) -/

/-- What the blocks may touch in a response to a second or to a boundary. -/
abbrev responseFields : List Field :=
  [.account, .heat, .table, .proj, .trains, .dispatch, .orders, .mode, .supervision, .port]

theorem trainsDay_touches (b : Turn) : Touches [.trains] s (trainsDay b s) := by
  unfold trainsDay; split
  · exact trainsNewDay_touches s
  · exact Touches.same _ s
theorem respondBoundary_touches (b : Turn) : ∀ p : Part,
    Touches [.account, .heat, .table, .proj, .trains, .dispatch, .orders, .port] s (respondBoundary b p s)
  | .accountClose => (accountClose_touches s).mono (by decide)
  | .storesLoss => (storesLoss_touches s).mono (by decide)
  | .tableBoundary => (tableBoundary_touches s _ _).mono (by decide)
  | .dispatchClose => (dispatchClose_touches s _).mono (by decide)
  | .ordersBoundary => (ordersBoundary_touches s _ _).mono (by decide)
  | .trainsDay => (trainsDay_touches s b).mono (by decide)
  | .projectionBoundary => (basisChange_touches s).mono (by decide)
  | .accountSecond | .storesSecond | .trainsSecond | .dispatchSecond | .ordersSecond | .supervisionSecond
  | .clockSecond => Touches.same _ s
theorem respondSecond_touches : ∀ p : Part,
    Touches [.account, .heat, .proj, .trains, .dispatch, .orders, .mode, .supervision, .port] s (respondSecond p s)
  | .accountSecond => (accountSecond_touches s).mono (by decide)
  | .storesSecond => (storesSecond_touches s).mono (by decide)
  | .trainsSecond => (trainsSecond_touches s).mono (by decide)
  | .dispatchSecond => (dispatchSecond_touches s).mono (by decide)
  | .ordersSecond => (ordersSecond_touches s).mono (by decide)
  | .supervisionSecond => (supervisionSecond_touches s).mono (by decide)
  | .clockSecond | .accountClose | .storesLoss | .tableBoundary | .dispatchClose | .ordersBoundary | .trainsDay
  | .projectionBoundary => Touches.same _ s
theorem respondDue_touches (d : Due) : Touches responseFields s (respondDue d s) := by
  cases d with
  | second p => exact (respondSecond_touches s p).mono (by decide)
  | boundary b p => exact (respondBoundary_touches s b p).mono (by decide)
theorem respondAll_touches (ds : List Due) : Touches responseFields s (respondAll ds s) :=
  Touches.foldl _ (fun u d => respondDue_touches u d) ds s
theorem settle_touches (b : Bool) : Touches (.due :: responseFields) s (settle b s) :=
  (touches_withDue s _).comp (respondAll_touches _ _)

/-- With nothing due every block stands in the current interval, and the close's basis change is as any other. -/
theorem intervalOf_nothing (p : Part) (h : s.due = []) : intervalOf p s = s.clock.n := by simp [intervalOf, h]
theorem closeBasisChange_nothing (h : s.due = []) : closeBasisChange s = basisChange s := by
  simp [closeBasisChange, basisChange, intervalOf_nothing s _ h]
/-- With nothing due there is nothing to settle. -/
theorem settle_nothing (b : Bool) (h : s.due = []) : settle b s = s := by
  unfold settle; rw [h]; simp only [List.filter_nil, respondAll, List.foldl_nil]; rw [← h]; rfl

/-- What is still due to an earlier boundary, made as CLOCK_SET makes it, and then the clock, the closings and the engine. -/
theorem setClock_frame (n d c : Nat) :
    Touches [.clock, .dispatch, .orders, .proj, .port] (settle true s) (setClock n d c s) := by
  unfold setClock; dsimp only
  have h : Touches [.clock, .dispatch, .orders, .proj, .port] (settle true s) _ :=
    (touches_withClock (settle true s) { running := true, n, s := c, dayPos := d, lastCapture := none }).comp
      (touches_withDispatch _
        { (settle true s).dispatch with
          closing := { (settle true s).dispatch.closing with interval := intervalBefore n } })
  have h : Touches [.clock, .dispatch, .orders, .proj, .port] (settle true s) _ :=
    h.comp (eachDir_touches _ _ fun d u => setActClosing_touches u (intervalBefore n) d)
  exact h.comp (basisChange_touches _)
theorem setClock_touches (n d c : Nat) : Touches (.clock :: .due :: responseFields) s (setClock n d c s) :=
  (settle_touches s true).comp (setClock_frame s n d c)

/-! ### Events of several blocks -/

/-- What the blocks may touch in a second or at a boundary: never the limits record, the lock, the free values or the queue. -/
abbrev eventFields : List Field :=
  [.account, .heat, .table, .proj, .trains, .clock, .dispatch, .orders, .mode, .supervision, .port, .due]

theorem respondOrPutOff_touches (l : List Part) (ds : List Due) : Touches eventFields s (respondOrPutOff l ds s) :=
  ((touches_withDue s _).mono (by decide)).trans
    (Touches.foldl _ (fun u d => (respondDue_touches u d).mono (by decide)) _ _)
theorem settleForSecond_touches : Touches eventFields s (settleForSecond s) := by
  have h : Touches eventFields s (settle false s) := (settle_touches s _).mono (by decide)
  unfold settleForSecond; dsimp only
  split
  · exact h.comp (settle_touches _ _)
  · exact h
theorem boundaryNow_touches (how : Schedule) : Touches eventFields s (boundaryNow how s) := by
  have h : Touches eventFields s (endInterval (settle true s)) := (settle_touches s _).comp (endInterval_touches _)
  exact h.trans (respondOrPutOff_touches _ how.later _)
theorem secondNow_touches (how : Schedule) : Touches eventFields s (secondNow how s) := by
  have h : Touches eventFields s _ :=
    ((settleForSecond_touches s).trans (respondOrPutOff_touches _ how.later ((beforeClock how.order).map .second))).comp
      (clockSecond_touches _)
  exact h.trans (respondOrPutOff_touches _ how.later _)
theorem pulseNow_touches (how : Schedule) : Touches eventFields s (pulseNow how s) := by
  unfold pulseNow; split
  · exact (keepCapture_touches s).comp (boundaryNow_touches _ how)
  · exact (keepCapture_touches s).comp (restartCount_touches _)
  · exact (keepCapture_touches s).comp (raise_touches _ _)
theorem respondNext_touches : Touches eventFields s (respondNext s) := by
  unfold respondNext; split
  · exact Touches.same _ s
  · exact (touches_withDue s _).comp (respondDue_touches _ _)

end

end Sys2Proof.Machine
end

