-- ==== Sys2Proof/Laws/Owners.lean ====
section
/-! SUPPORT. Frames of the owners of requests: what a request may touch once the port has handed it over. -/

namespace Sys2Proof.Machine

set_option Elab.async false

variable (s : State)

/-! ### Cavern account -/

theorem ownPostReading_touches (r : ReadingArgs) :
    Touches [.account, .trains, .heat, .proj, .supervision, .port] s (ownPostReading r s) := by
  unfold ownPostReading; dsimp only
  exact Touches.comp (Touches.comp (gs := [.account, .trains, .heat, .proj, .supervision, .port])
    (Touches.comp (gs := [.account, .trains, .heat, .proj, .port])
      (Touches.comp (gs := [.account, .proj, .port]) (touches_withAccount s _) (baseAccount_touches _))
      (judgeExcursions_touches _)) (refreshReading_touches _)) (answer_touches _ _ _ _)
theorem ownRebase_touches : Touches [.account, .proj, .port] s (ownRebase s) := by
  unfold ownRebase; dsimp only
  split
  · exact (answer_touches s _ _ _).mono (by decide)
  · exact Touches.comp (Touches.comp (gs := [.account, .proj, .port])
      (Touches.comp (gs := [.account, .port]) (touches_withAccount s _) (raise_touches _ _)) (basisChange_touches _))
      (answer_touches _ _ _ _)
theorem clearSide_touches (side : Side) : Touches [.account, .trains, .heat, .proj, .port] s (clearSide side s) := by
  unfold clearSide; split
  · exact setExcursion_touches s _ _
  · exact Touches.same _ s
theorem ownExcursionClear_touches (b : Byte) :
    Touches [.account, .trains, .heat, .proj, .port] s (ownExcursionClear b s) := by
  have hr : ∀ u c r p, Touches [.account, .trains, .heat, .proj, .port] u (answer c r p u) :=
    fun u c r p => (answer_touches u c r p).mono (by decide)
  unfold ownExcursionClear; split
  · exact hr _ _ _ _
  · split
    · exact hr _ _ _ _
    · split
      · exact hr _ _ _ _
      · dsimp only
        split <;> split
        · exact ((clearSide_touches s _).trans (clearSide_touches _ _)).trans (hr _ _ _ _)
        · exact (clearSide_touches s _).trans (hr _ _ _ _)
        · exact (clearSide_touches s _).trans (hr _ _ _ _)
        · exact hr _ _ _ _

/-! ### Heat stores -/

theorem ownStoreService_touches (i d : Byte) : Touches [.heat, .proj, .port] s (ownStoreService i d s) := by
  unfold ownStoreService; split
  · dsimp only
    split <;> split
    all_goals first
      | exact (answer_touches s _ _ _).mono (by decide)
      | exact (serviceStore_touches s _ _).comp (answer_touches _ _ _ _)
  · exact (answer_touches s _ _ _).mono (by decide)
theorem ownStoreSet_touches (i : Byte) (c : Word) : Touches [.heat, .port] s (ownStoreSet i c s) := by
  unfold ownStoreSet; split
  · exact (answer_touches s _ _ _).mono (by decide)
  · split
    · exact (answer_touches s _ _ _).mono (by decide)
    · split
      · exact (answer_touches s _ _ _).mono (by decide)
      · exact Touches.comp ((setStore_touches s _ _).trans (recomputePools_touches _)) (answer_touches _ _ _ _)
theorem ownReadStore_touches (i : Byte) : Touches [.port] s (ownReadStore i s) := by
  unfold ownReadStore; split <;> exact answer_touches s _ _ _

/-! ### Commitment table -/

theorem ownAdmit_touches (a : AdmitArgs) : Touches [.proj, .port] s (ownAdmit a s) := by
  unfold ownAdmit; split
  · exact (answer_touches s _ _ _).mono (by decide)
  · split
    · exact (answer_touches s _ _ _).mono (by decide)
    · split
      · exact (answer_touches s _ _ _).mono (by decide)
      · exact handCandidate_touches s _ _
theorem ownAmend_touches (c : Client) (a : AmendArgs) : Touches [.table, .proj, .port] s (ownAmend c a s) := by
  have hr : ∀ c r p, Touches [.table, .proj, .port] s (answer c r p s) :=
    fun c r p => (answer_touches s c r p).mono (by decide)
  unfold ownAmend; split
  · exact hr _ _ _
  · split
    · exact hr _ _ _
    · dsimp only
      split
      · exact hr _ _ _
      · split
        · exact hr _ _ _
        · split
          · exact hr _ _ _
          · split
            · exact (handCandidate_touches s _ _).mono (by decide)
            · split
              · exact hr _ _ _
              · exact Touches.comp (Touches.comp (gs := [.table, .proj, .port]) (putEntry_touches s _)
                  (basisChange_touches _)) (answer_touches _ _ _ _)
theorem ownWithdraw_touches (c : Client) (n : Half) : Touches [.table, .proj, .port] s (ownWithdraw c n s) := by
  have hr : ∀ c r p, Touches [.table, .proj, .port] s (answer c r p s) :=
    fun c r p => (answer_touches s c r p).mono (by decide)
  unfold ownWithdraw; split
  · exact hr _ _ _
  · split
    · split
      · exact hr _ _ _
      · exact Touches.comp (Touches.comp (gs := [.table, .proj, .port]) (freeSlot_touches s _)
          (basisChange_touches _)) (answer_touches _ _ _ _)
    · split
      · exact Touches.comp (Touches.comp (gs := [.table, .proj, .port])
          (Touches.comp (gs := [.table, .port]) (putEntry_touches s _) (raise_touches _ _)) (basisChange_touches _))
          (answer_touches _ _ _ _)
      · exact hr _ _ _
theorem ownSettle_touches (n : Half) : Touches [.table, .port] s (ownSettle n s) := by
  unfold ownSettle; split
  · exact (answer_touches s _ _ _).mono (by decide)
  · split
    · exact (freeSlot_touches s _).comp (answer_touches _ _ _ _)
    · exact (answer_touches s _ _ _).mono (by decide)
theorem ownQueryEntry_touches (n : Half) : Touches [.port] s (ownQueryEntry n s) := by
  unfold ownQueryEntry; split <;> exact answer_touches s _ _ _
theorem ownFindInterval_touches (n f q : Word) : Touches [.port] s (ownFindInterval n f q s) := answer_touches s _ _ _
theorem ownFindReference_touches (n : Half) (f q : Word) : Touches [.port] s (ownFindReference n f q s) :=
  answer_touches s _ _ _

/-! ### Projection and cursor -/

theorem ownReadProjection_touches (a b c d : Byte) : Touches [.port] s (ownReadProjection a b c d s) := by
  unfold ownReadProjection; split
  · split
    · split
      · exact answer_touches s _ _ _
      · exact (setCursor_touches s _).trans (answer_touches _ _ _ _)
    · exact answer_touches s _ _ _
  · exact answer_touches s _ _ _
theorem ownReadNext_touches : Touches [.port] s (ownReadNext s) := by
  unfold ownReadNext; dsimp only
  split
  · exact answer_touches s _ _ _
  · exact (setCursor_touches s _).trans (answer_touches _ _ _ _)

/-! ### Trains -/

theorem ownTrainReset_touches (i : Byte) : Touches [.trains, .proj, .port] s (ownTrainReset i s) := by
  unfold ownTrainReset; split
  · exact (answer_touches s _ _ _).mono (by decide)
  · split
    · exact (answer_touches s _ _ _).mono (by decide)
    · exact Touches.comp (Touches.comp (gs := [.trains, .proj, .port]) (Touches.comp (gs := [.trains, .port])
        (putTrainCovered_touches s _ _) (raise_touches _ _)) (basisChange_touches _)) (answer_touches _ _ _ _)
theorem ownTrainUnlock_touches (i : Byte) : Touches [.trains, .proj, .port] s (ownTrainUnlock i s) := by
  unfold ownTrainUnlock; split
  · exact (answer_touches s _ _ _).mono (by decide)
  · split
    · exact (answer_touches s _ _ _).mono (by decide)
    · exact Touches.comp (Touches.comp (gs := [.trains, .proj, .port]) (Touches.comp (gs := [.trains, .port])
        (putTrainCovered_touches s _ _) (raise_touches _ _)) (basisChange_touches _)) (answer_touches _ _ _ _)
theorem takeOut_touches (t : TrainIx) : Touches [.trains, .proj, .port] s (takeOut t s) :=
  (putTrainCovered_touches s _ _).comp (basisChange_touches _)
theorem takeBack_touches (t : TrainIx) : Touches [.trains, .proj, .port] s (takeBack t s) :=
  Touches.comp (Touches.comp (gs := [.trains, .port]) (putTrainCovered_touches s _ _) (raise_touches _ _))
    (basisChange_touches _)
theorem ownTrainService_touches (i d : Byte) : Touches [.trains, .proj, .port] s (ownTrainService i d s) := by
  unfold ownTrainService; split
  · split
    · exact (takeOut_touches s _).comp (answer_touches _ _ _ _)
    · exact (answer_touches s _ _ _).mono (by decide)
  · split
    · exact (answer_touches s _ _ _).mono (by decide)
    · exact (takeBack_touches s _).comp (answer_touches _ _ _ _)
  · exact (answer_touches s _ _ _).mono (by decide)
theorem rankTrains_touches (ts : List TrainIx) : Touches [.trains] s (rankTrains ts s) :=
  eachTrain_touches s _ (fun t u => setTrain_touches u t _) ts
theorem ownTrainPriority_touches (b : Byte) (l : List Byte) : Touches [.trains, .port] s (ownTrainPriority b l s) := by
  unfold ownTrainPriority; split
  · exact (answer_touches s _ _ _).mono (by decide)
  · exact (rankTrains_touches s _).comp (answer_touches _ _ _ _)
theorem assignHeater_touches (t : TrainIx) (h : Heater) : Touches [.trains, .proj, .port] s (assignHeater t h s) := by
  unfold assignHeater; split
  · exact Touches.same _ s
  · exact putTrain_touches s _ _
theorem ownHeaterAssign_touches (i h : Byte) : Touches [.trains, .proj, .port] s (ownHeaterAssign i h s) := by
  unfold ownHeaterAssign; split
  · split
    · exact (assignHeater_touches s _ _).comp (answer_touches _ _ _ _)
    · exact (answer_touches s _ _ _).mono (by decide)
  · exact (answer_touches s _ _ _).mono (by decide)
theorem setCycle_touches (k : CycleTimer) (c : Cycle) : Touches [.trains] s (s.setCycle k c) := by
  cases k <;> exact touches_withTrains s _
theorem ownHeaterTimer_touches (t : Byte) (p o : Half) : Touches [.trains, .port] s (ownHeaterTimer t p o s) := by
  unfold ownHeaterTimer; split
  · exact (answer_touches s _ _ _).mono (by decide)
  · split
    · exact (setCycle_touches s _ _).comp (answer_touches _ _ _ _)
    · exact (answer_touches s _ _ _).mono (by decide)
theorem ownReadTrain_touches (i : Byte) : Touches [.port] s (ownReadTrain i s) := by
  unfold ownReadTrain; split <;> exact answer_touches s _ _ _

/-! ### Orders -/

theorem ownPatternWrite_touches (a : PatternArgs) : Touches [.orders, .port] s (ownPatternWrite a s) := by
  unfold ownPatternWrite; split
  · exact (answer_touches s _ _ _).mono (by decide)
  · split
    · exact (answer_touches s _ _ _).mono (by decide)
    · exact (touches_withOrders s _).comp (answer_touches _ _ _ _)
theorem ownPatternRead_touches (i : Byte) : Touches [.port] s (ownPatternRead i s) := by
  unfold ownPatternRead; split <;> exact answer_touches s _ _ _
theorem ownOrderRelease_touches (d : Byte) : Touches [.orders, .port] s (ownOrderRelease d s) := by
  unfold ownOrderRelease; split
  · exact (answer_touches s _ _ _).mono (by decide)
  · exact (Touches.foldl _ (fun u d => releaseAct_touches u d .request) _ s).comp (answer_touches _ _ _ _)

/-! ### Clock -/

theorem ownClockSet_touches (n : Word) (d c : Half) :
    Touches (.clock :: .due :: responseFields) s (ownClockSet n d c s) := by
  unfold ownClockSet; split
  · exact (answer_touches s _ _ _).mono (by decide)
  · split
    · exact (answer_touches s _ _ _).mono (by decide)
    · exact (setClock_touches s _ _ _).comp (answer_touches _ _ _ _)

/-! ### Modes, limits and supervision -/

theorem answerMode_touches (r : Request) : Touches [.port] s (answerMode r s) := answer_touches s _ _ _
theorem ownParamWrite_touches (i : Byte) (v : Word) : Touches [.limits, .heat, .port] s (ownParamWrite i v s) := by
  unfold ownParamWrite; split
  · exact (answer_touches s _ _ _).mono (by decide)
  · split
    · exact (answer_touches s _ _ _).mono (by decide)
    · split
      · exact (writeParam_touches s _ _).comp (answer_touches _ _ _ _)
      · exact (answer_touches s _ _ _).mono (by decide)
/-- R172: a locked record is never written. -/
theorem ownParamWrite_locked (h : s.locked = true) (i : Byte) (v : Word) : Touches [.port] s (ownParamWrite i v s) := by
  simp only [ownParamWrite, h, if_true]
  exact answer_touches s _ _ _
theorem ownParamRead_touches (i : Byte) : Touches [.port] s (ownParamRead i s) := by
  unfold ownParamRead; split <;> exact answer_touches s _ _ _
theorem ownLockLimits_touches :
    Touches [.locked, .mode, .supervision, .orders, .trains, .heat, .proj, .port] s (ownLockLimits s) := by
  have hr : ∀ c r p, Touches [.locked, .mode, .supervision, .orders, .trains, .heat, .proj, .port] s (answer c r p s) :=
    fun c r p => (answer_touches s c r p).mono (by decide)
  unfold ownLockLimits; split
  · exact hr _ _ _
  · split
    · exact hr _ _ _
    · split
      · exact hr _ _ _
      · split
        · exact hr _ _ _
        · exact Touches.comp
            (Touches.comp (gs := [.locked, .mode, .supervision, .orders, .trains, .heat, .proj, .port])
              (Touches.comp (gs := [.locked, .mode, .supervision, .orders, .trains, .heat, .proj, .port])
                (touches_withLocked s _) (changeMode_touches _ _)) (clearFailures_touches _)) (answer_touches _ _ _ _)
theorem ownSupervisionSet_touches (a : SupervisionArgs) : Touches [.supervision, .port] s (ownSupervisionSet a s) := by
  unfold ownSupervisionSet; split
  · split
    · exact (answer_touches s _ _ _).mono (by decide)
    · exact (touches_withSupervision s _).comp (answer_touches _ _ _ _)
  · exact (answer_touches s _ _ _).mono (by decide)
theorem ownKeepalive_touches : Touches modeFields s (ownKeepalive s) := by
  unfold ownKeepalive; dsimp only
  split
  · exact (supervisionFailure_touches s).comp (answer_touches _ _ _ _)
  · exact (reloadTimer_touches s).comp (answer_touches _ _ _ _)
theorem ownForceExpiry_touches : Touches modeFields s (ownForceExpiry s) := by
  unfold ownForceExpiry; split
  · exact (answer_touches s _ _ _).mono (by decide)
  · split
    · exact (answer_touches s _ _ _).mono (by decide)
    · exact (supervisionFailure_touches s).comp (answerMode_touches _ _)
theorem ownResume_touches : Touches modeFields s (ownResume s) := by
  unfold ownResume; split
  · exact Touches.comp (Touches.comp (gs := modeFields) (changeMode_touches s _) (clearFailures_touches _))
      (answerMode_touches _ _)
  · exact (answer_touches s _ _ _).mono (by decide)
theorem ownRecover_touches : Touches modeFields s (ownRecover s) := by
  unfold ownRecover; split
  · exact (answer_touches s _ _ _).mono (by decide)
  · split
    · exact (answer_touches s _ _ _).mono (by decide)
    · split
      · exact (answer_touches s _ _ _).mono (by decide)
      · exact Touches.comp (Touches.comp (gs := modeFields) (changeMode_touches s _) (clearFailures_touches _))
          (answerMode_touches _ _)
theorem ownEnterHold_touches : Touches modeFields s (ownEnterHold s) := by
  unfold ownEnterHold; split
  · exact (changeMode_touches s _).comp (answerMode_touches _ _)
  · exact (answerMode_touches s _).mono (by decide)
  · exact (answer_touches s _ _ _).mono (by decide)
  · exact (answer_touches s _ _ _).mono (by decide)
theorem ownEnterSafe_touches : Touches modeFields s (ownEnterSafe s) := by
  unfold ownEnterSafe; split
  · exact (changeMode_touches s _).comp (answerMode_touches _ _)
  · exact (changeMode_touches s _).comp (answerMode_touches _ _)
  · exact (answerMode_touches s _).mono (by decide)
  · exact (answer_touches s _ _ _).mono (by decide)

/-! ### Port -/

theorem ownNotices_touches (c : Half) : Touches [.port] s (ownNotices c s) :=
  (touches_withPort s _).trans (answer_touches _ _ _ _)
theorem answerMask_touches (r : Request) (m : Half) : Touches [.port] s (answerMask r m s) :=
  (touches_withPort s _).trans (answer_touches _ _ _ _)
theorem ownRestart_touches : Touches [.orders, .supervision, .proj, .port] s (ownRestart s) := by
  unfold ownRestart
  exact Touches.comp (Touches.comp (gs := [.orders, .supervision, .proj, .port])
    (Touches.comp (gs := [.orders, .supervision, .proj, .port]) (Touches.comp (gs := [.orders, .supervision, .proj, .port])
      (touches_withPort s _) (restartOrders_touches _)) (restartSupervision_touches _)) (restartEngine_touches _))
    (answer_touches _ _ _ _)

end Sys2Proof.Machine
end

