-- ==== Sys2Proof/Laws/PerInstr.lean ====
section
/-! SUPPORT. Per-constructor laws of the commands as syntax. -/

set_option Elab.async false
set_option linter.unusedSimpArgs false

namespace Sys2Proof

/-! ### Fields read back (R196): big-endian words -/

theorem fieldByte_cons_zero (b : Byte) (p : List Byte) : fieldByte (b :: p) 0 = b := rfl
theorem fieldByte_cons_succ (b : Byte) (p : List Byte) (n : Nat) : fieldByte (b :: p) (n + 1) = fieldByte p n := by
  simp [fieldByte, List.getD]

/-- A 16-bit field is its two bytes, most significant first. -/
theorem half_bytes (v : Half) : v.extractLsb' 8 8 ++ v.extractLsb' 0 8 = v := by
  apply BitVec.eq_of_getLsbD_eq; intro i hi
  simp only [BitVec.getLsbD_append, BitVec.getLsbD_extractLsb']
  split
  · simp_all
  · rw [show 8 + (i - 8) = i by omega]; simp; omega

theorem fieldHalf_cons_succ (b : Byte) (p : List Byte) (n : Nat) : fieldHalf (b :: p) (n + 1) = fieldHalf p n := by
  simp only [fieldHalf, fieldByte_cons_succ]

theorem fieldWord_cons_succ (b : Byte) (p : List Byte) (n : Nat) : fieldWord (b :: p) (n + 1) = fieldWord p n := by
  simp only [fieldWord, fieldHalf_cons_succ, Nat.succ_eq_add_one, show n + 1 + 2 = (n + 2) + 1 from rfl]

theorem fieldHalf_halfBytes (v : Half) (p : List Byte) : fieldHalf (halfBytes v ++ p) 0 = v := half_bytes v

theorem fieldWord_wordBytes (v : Word) (p : List Byte) : fieldWord (wordBytes v ++ p) 0 = v := by
  have h1 : fieldHalf (wordBytes v ++ p) 0 = v.extractLsb' 16 16 :=
    fieldHalf_halfBytes _ (halfBytes (v.extractLsb' 0 16) ++ p)
  have h2 : fieldHalf (wordBytes v ++ p) (0 + 2) = v.extractLsb' 0 16 := fieldHalf_halfBytes _ p
  unfold fieldWord; rw [h1, h2]
  apply BitVec.eq_of_getLsbD_eq; intro i hi
  simp only [BitVec.getLsbD_append, BitVec.getLsbD_extractLsb']
  split
  · simp_all
  · rw [show 16 + (i - 16) = i by omega]; simp; omega

theorem fieldHalf_halfBytes_nil (v : Half) : fieldHalf (halfBytes v) 0 = v := half_bytes v

theorem fieldWord_wordBytes_nil (v : Word) : fieldWord (wordBytes v) 0 = v := by
  simpa using fieldWord_wordBytes v []

theorem fieldByte_skipHalf (v : Half) (p : List Byte) (n : Nat) : fieldByte (halfBytes v ++ p) (n + 2) = fieldByte p n := rfl
theorem fieldHalf_skipHalf (v : Half) (p : List Byte) (n : Nat) : fieldHalf (halfBytes v ++ p) (n + 2) = fieldHalf p n := rfl
theorem fieldWord_skipHalf (v : Half) (p : List Byte) (n : Nat) : fieldWord (halfBytes v ++ p) (n + 2) = fieldWord p n := rfl
theorem fieldByte_skipWord (v : Word) (p : List Byte) (n : Nat) : fieldByte (wordBytes v ++ p) (n + 4) = fieldByte p n := rfl
theorem fieldHalf_skipWord (v : Word) (p : List Byte) (n : Nat) : fieldHalf (wordBytes v ++ p) (n + 4) = fieldHalf p n := rfl
theorem fieldWord_skipWord (v : Word) (p : List Byte) (n : Nat) : fieldWord (wordBytes v ++ p) (n + 4) = fieldWord p n := rfl

namespace Laws.RequestRow

/-- A request's command is read back from its payload: each field of its layout is written where it is read (R198, R204). -/
def Statement (i : Instr) : Prop := ∀ r h, i.request? = some (r, h) → commandOf r h (payloadOf i) = i

theorem powerOnReset (lines : ResetLines) : Statement (.powerOnReset lines) := by intro r h hr; simp [Instr.request?] at hr
theorem secondEvent (how : Schedule) : Statement (.secondEvent how) := by intro r h hr; simp [Instr.request?] at hr
theorem readingStale : Statement .readingStale := by intro r h hr; simp [Instr.request?] at hr
theorem startingExpiry (t : TrainIx) : Statement (.startingExpiry t) := by intro r h hr; simp [Instr.request?] at hr
theorem readyMaxExpiry (t : TrainIx) : Statement (.readyMaxExpiry t) := by intro r h hr; simp [Instr.request?] at hr
theorem stopTimeExpiry (t : TrainIx) : Statement (.stopTimeExpiry t) := by intro r h hr; simp [Instr.request?] at hr
theorem minDownExpiry (t : TrainIx) : Statement (.minDownExpiry t) := by intro r h hr; simp [Instr.request?] at hr
theorem hotWindowExpiry (t : TrainIx) : Statement (.hotWindowExpiry t) := by intro r h hr; simp [Instr.request?] at hr
theorem heaterCycleWrap (timer : CycleTimer) : Statement (.heaterCycleWrap timer) := by intro r h hr; simp [Instr.request?] at hr
theorem confirmWindowExpiry (d : Dir) : Statement (.confirmWindowExpiry d) := by intro r h hr; simp [Instr.request?] at hr
theorem holdExpiry (d : Dir) : Statement (.holdExpiry d) := by intro r h hr; simp [Instr.request?] at hr
theorem supervisionExpiry : Statement .supervisionExpiry := by intro r h hr; simp [Instr.request?] at hr
theorem boundary (how : Schedule) : Statement (.boundary how) := by intro r h hr; simp [Instr.request?] at hr
theorem fullWalkComplete : Statement .fullWalkComplete := by intro r h hr; simp [Instr.request?] at hr
theorem trialWalkComplete : Statement .trialWalkComplete := by intro r h hr; simp [Instr.request?] at hr
theorem syncPulse (how : Schedule) : Statement (.syncPulse how) := by intro r h hr; simp [Instr.request?] at hr
theorem tripAssertion (t : TrainIx) : Statement (.tripAssertion t) := by intro r h hr; simp [Instr.request?] at hr
theorem tripRelease (t : TrainIx) : Statement (.tripRelease t) := by intro r h hr; simp [Instr.request?] at hr
theorem orderByte (value : Byte) (framingError : Bool) : Statement (.orderByte value framingError) := by intro r h hr; simp [Instr.request?] at hr
theorem telegramGapTimeout : Statement .telegramGapTimeout := by intro r h hr; simp [Instr.request?] at hr
theorem identify (h : Head) : Statement (.identify h) := by
  intro r h' hr; simp only [Instr.request?, Option.some.injEq, Prod.mk.injEq] at hr; obtain ⟨rfl, rfl⟩ := hr
  rfl
theorem notices (h : Head) (clear : Half) : Statement (.notices h clear) := by
  intro r h' hr; simp only [Instr.request?, Option.some.injEq, Prod.mk.injEq] at hr; obtain ⟨rfl, rfl⟩ := hr
  simp [commandOf, payloadOf, fieldByte_cons_zero, fieldByte_cons_succ, fieldHalf_cons_succ, fieldWord_cons_succ,
    fieldHalf_halfBytes, fieldWord_wordBytes, fieldHalf_halfBytes_nil, fieldWord_wordBytes_nil, fieldByte_skipHalf,
    fieldHalf_skipHalf, fieldWord_skipHalf, fieldByte_skipWord, fieldHalf_skipWord, fieldWord_skipWord]
theorem noticeMaskSet (h : Head) (set : Half) : Statement (.noticeMaskSet h set) := by
  intro r h' hr; simp only [Instr.request?, Option.some.injEq, Prod.mk.injEq] at hr; obtain ⟨rfl, rfl⟩ := hr
  simp [commandOf, payloadOf, fieldByte_cons_zero, fieldByte_cons_succ, fieldHalf_cons_succ, fieldWord_cons_succ,
    fieldHalf_halfBytes, fieldWord_wordBytes, fieldHalf_halfBytes_nil, fieldWord_wordBytes_nil, fieldByte_skipHalf,
    fieldHalf_skipHalf, fieldWord_skipHalf, fieldByte_skipWord, fieldHalf_skipWord, fieldWord_skipWord]
theorem noticeMaskClear (h : Head) (set : Half) : Statement (.noticeMaskClear h set) := by
  intro r h' hr; simp only [Instr.request?, Option.some.injEq, Prod.mk.injEq] at hr; obtain ⟨rfl, rfl⟩ := hr
  simp [commandOf, payloadOf, fieldByte_cons_zero, fieldByte_cons_succ, fieldHalf_cons_succ, fieldWord_cons_succ,
    fieldHalf_halfBytes, fieldWord_wordBytes, fieldHalf_halfBytes_nil, fieldWord_wordBytes_nil, fieldByte_skipHalf,
    fieldHalf_skipHalf, fieldWord_skipHalf, fieldByte_skipWord, fieldHalf_skipWord, fieldWord_skipWord]
theorem restart (h : Head) : Statement (.restart h) := by
  intro r h' hr; simp only [Instr.request?, Option.some.injEq, Prod.mk.injEq] at hr; obtain ⟨rfl, rfl⟩ := hr
  rfl
theorem postReading (h : Head) (a : ReadingArgs) : Statement (.postReading h a) := by
  intro r h' hr; simp only [Instr.request?, Option.some.injEq, Prod.mk.injEq] at hr; obtain ⟨rfl, rfl⟩ := hr
  simp [commandOf, payloadOf, fieldByte_cons_zero, fieldByte_cons_succ, fieldHalf_cons_succ, fieldWord_cons_succ,
    fieldHalf_halfBytes, fieldWord_wordBytes, fieldHalf_halfBytes_nil, fieldWord_wordBytes_nil, fieldByte_skipHalf,
    fieldHalf_skipHalf, fieldWord_skipHalf, fieldByte_skipWord, fieldHalf_skipWord, fieldWord_skipWord]
theorem readAccount (h : Head) : Statement (.readAccount h) := by
  intro r h' hr; simp only [Instr.request?, Option.some.injEq, Prod.mk.injEq] at hr; obtain ⟨rfl, rfl⟩ := hr
  rfl
theorem rebase (h : Head) : Statement (.rebase h) := by
  intro r h' hr; simp only [Instr.request?, Option.some.injEq, Prod.mk.injEq] at hr; obtain ⟨rfl, rfl⟩ := hr
  rfl
theorem excursionClear (h : Head) (side : Byte) : Statement (.excursionClear h side) := by
  intro r h' hr; simp only [Instr.request?, Option.some.injEq, Prod.mk.injEq] at hr; obtain ⟨rfl, rfl⟩ := hr
  simp [commandOf, payloadOf, fieldByte_cons_zero, fieldByte_cons_succ, fieldHalf_cons_succ, fieldWord_cons_succ,
    fieldHalf_halfBytes, fieldWord_wordBytes, fieldHalf_halfBytes_nil, fieldWord_wordBytes_nil, fieldByte_skipHalf,
    fieldHalf_skipHalf, fieldWord_skipHalf, fieldByte_skipWord, fieldHalf_skipWord, fieldWord_skipWord]
theorem storeService (h : Head) (index direction : Byte) : Statement (.storeService h index direction) := by
  intro r h' hr; simp only [Instr.request?, Option.some.injEq, Prod.mk.injEq] at hr; obtain ⟨rfl, rfl⟩ := hr
  simp [commandOf, payloadOf, fieldByte_cons_zero, fieldByte_cons_succ, fieldHalf_cons_succ, fieldWord_cons_succ,
    fieldHalf_halfBytes, fieldWord_wordBytes, fieldHalf_halfBytes_nil, fieldWord_wordBytes_nil, fieldByte_skipHalf,
    fieldHalf_skipHalf, fieldWord_skipHalf, fieldByte_skipWord, fieldHalf_skipWord, fieldWord_skipWord]
theorem storeSet (h : Head) (index : Byte) (content : Word) : Statement (.storeSet h index content) := by
  intro r h' hr; simp only [Instr.request?, Option.some.injEq, Prod.mk.injEq] at hr; obtain ⟨rfl, rfl⟩ := hr
  simp [commandOf, payloadOf, fieldByte_cons_zero, fieldByte_cons_succ, fieldHalf_cons_succ, fieldWord_cons_succ,
    fieldHalf_halfBytes, fieldWord_wordBytes, fieldHalf_halfBytes_nil, fieldWord_wordBytes_nil, fieldByte_skipHalf,
    fieldHalf_skipHalf, fieldWord_skipHalf, fieldByte_skipWord, fieldHalf_skipWord, fieldWord_skipWord]
theorem readStore (h : Head) (index : Byte) : Statement (.readStore h index) := by
  intro r h' hr; simp only [Instr.request?, Option.some.injEq, Prod.mk.injEq] at hr; obtain ⟨rfl, rfl⟩ := hr
  simp [commandOf, payloadOf, fieldByte_cons_zero, fieldByte_cons_succ, fieldHalf_cons_succ, fieldWord_cons_succ,
    fieldHalf_halfBytes, fieldWord_wordBytes, fieldHalf_halfBytes_nil, fieldWord_wordBytes_nil, fieldByte_skipHalf,
    fieldHalf_skipHalf, fieldWord_skipHalf, fieldByte_skipWord, fieldHalf_skipWord, fieldWord_skipWord]
theorem admitEntry (h : Head) (a : AdmitArgs) : Statement (.admitEntry h a) := by
  intro r h' hr; simp only [Instr.request?, Option.some.injEq, Prod.mk.injEq] at hr; obtain ⟨rfl, rfl⟩ := hr
  simp [commandOf, payloadOf, fieldByte_cons_zero, fieldByte_cons_succ, fieldHalf_cons_succ, fieldWord_cons_succ,
    fieldHalf_halfBytes, fieldWord_wordBytes, fieldHalf_halfBytes_nil, fieldWord_wordBytes_nil, fieldByte_skipHalf,
    fieldHalf_skipHalf, fieldWord_skipHalf, fieldByte_skipWord, fieldHalf_skipWord, fieldWord_skipWord]
theorem amend (h : Head) (a : AmendArgs) : Statement (.amend h a) := by
  intro r h' hr; simp only [Instr.request?, Option.some.injEq, Prod.mk.injEq] at hr; obtain ⟨rfl, rfl⟩ := hr
  simp [commandOf, payloadOf, fieldByte_cons_zero, fieldByte_cons_succ, fieldHalf_cons_succ, fieldWord_cons_succ,
    fieldHalf_halfBytes, fieldWord_wordBytes, fieldHalf_halfBytes_nil, fieldWord_wordBytes_nil, fieldByte_skipHalf,
    fieldHalf_skipHalf, fieldWord_skipHalf, fieldByte_skipWord, fieldHalf_skipWord, fieldWord_skipWord]
theorem withdraw (h : Head) (id : Half) : Statement (.withdraw h id) := by
  intro r h' hr; simp only [Instr.request?, Option.some.injEq, Prod.mk.injEq] at hr; obtain ⟨rfl, rfl⟩ := hr
  simp [commandOf, payloadOf, fieldByte_cons_zero, fieldByte_cons_succ, fieldHalf_cons_succ, fieldWord_cons_succ,
    fieldHalf_halfBytes, fieldWord_wordBytes, fieldHalf_halfBytes_nil, fieldWord_wordBytes_nil, fieldByte_skipHalf,
    fieldHalf_skipHalf, fieldWord_skipHalf, fieldByte_skipWord, fieldHalf_skipWord, fieldWord_skipWord]
theorem settle (h : Head) (id : Half) : Statement (.settle h id) := by
  intro r h' hr; simp only [Instr.request?, Option.some.injEq, Prod.mk.injEq] at hr; obtain ⟨rfl, rfl⟩ := hr
  simp [commandOf, payloadOf, fieldByte_cons_zero, fieldByte_cons_succ, fieldHalf_cons_succ, fieldWord_cons_succ,
    fieldHalf_halfBytes, fieldWord_wordBytes, fieldHalf_halfBytes_nil, fieldWord_wordBytes_nil, fieldByte_skipHalf,
    fieldHalf_skipHalf, fieldWord_skipHalf, fieldByte_skipWord, fieldHalf_skipWord, fieldWord_skipWord]
theorem queryEntry (h : Head) (id : Half) : Statement (.queryEntry h id) := by
  intro r h' hr; simp only [Instr.request?, Option.some.injEq, Prod.mk.injEq] at hr; obtain ⟨rfl, rfl⟩ := hr
  simp [commandOf, payloadOf, fieldByte_cons_zero, fieldByte_cons_succ, fieldHalf_cons_succ, fieldWord_cons_succ,
    fieldHalf_halfBytes, fieldWord_wordBytes, fieldHalf_halfBytes_nil, fieldWord_wordBytes_nil, fieldByte_skipHalf,
    fieldHalf_skipHalf, fieldWord_skipHalf, fieldByte_skipWord, fieldHalf_skipWord, fieldWord_skipWord]
theorem findInterval (h : Head) (n resumeFirst resumeSeq : Word) : Statement (.findInterval h n resumeFirst resumeSeq) := by
  intro r h' hr; simp only [Instr.request?, Option.some.injEq, Prod.mk.injEq] at hr; obtain ⟨rfl, rfl⟩ := hr
  simp [commandOf, payloadOf, fieldByte_cons_zero, fieldByte_cons_succ, fieldHalf_cons_succ, fieldWord_cons_succ,
    fieldHalf_halfBytes, fieldWord_wordBytes, fieldHalf_halfBytes_nil, fieldWord_wordBytes_nil, fieldByte_skipHalf,
    fieldHalf_skipHalf, fieldWord_skipHalf, fieldByte_skipWord, fieldHalf_skipWord, fieldWord_skipWord]
theorem findReference (h : Head) (tag : Half) (resumeFirst resumeSeq : Word) : Statement (.findReference h tag resumeFirst resumeSeq) := by
  intro r h' hr; simp only [Instr.request?, Option.some.injEq, Prod.mk.injEq] at hr; obtain ⟨rfl, rfl⟩ := hr
  simp [commandOf, payloadOf, fieldByte_cons_zero, fieldByte_cons_succ, fieldHalf_cons_succ, fieldWord_cons_succ,
    fieldHalf_halfBytes, fieldWord_wordBytes, fieldHalf_halfBytes_nil, fieldWord_wordBytes_nil, fieldByte_skipHalf,
    fieldHalf_skipHalf, fieldWord_skipHalf, fieldByte_skipWord, fieldHalf_skipWord, fieldWord_skipWord]
theorem projectionState (h : Head) : Statement (.projectionState h) := by
  intro r h' hr; simp only [Instr.request?, Option.some.injEq, Prod.mk.injEq] at hr; obtain ⟨rfl, rfl⟩ := hr
  rfl
theorem readProjection (h : Head) (row count reload view : Byte) : Statement (.readProjection h row count reload view) := by
  intro r h' hr; simp only [Instr.request?, Option.some.injEq, Prod.mk.injEq] at hr; obtain ⟨rfl, rfl⟩ := hr
  simp [commandOf, payloadOf, fieldByte_cons_zero, fieldByte_cons_succ, fieldHalf_cons_succ, fieldWord_cons_succ,
    fieldHalf_halfBytes, fieldWord_wordBytes, fieldHalf_halfBytes_nil, fieldWord_wordBytes_nil, fieldByte_skipHalf,
    fieldHalf_skipHalf, fieldWord_skipHalf, fieldByte_skipWord, fieldHalf_skipWord, fieldWord_skipWord]
theorem readNext (h : Head) : Statement (.readNext h) := by
  intro r h' hr; simp only [Instr.request?, Option.some.injEq, Prod.mk.injEq] at hr; obtain ⟨rfl, rfl⟩ := hr
  rfl
theorem trainService (h : Head) (index direction : Byte) : Statement (.trainService h index direction) := by
  intro r h' hr; simp only [Instr.request?, Option.some.injEq, Prod.mk.injEq] at hr; obtain ⟨rfl, rfl⟩ := hr
  simp [commandOf, payloadOf, fieldByte_cons_zero, fieldByte_cons_succ, fieldHalf_cons_succ, fieldWord_cons_succ,
    fieldHalf_halfBytes, fieldWord_wordBytes, fieldHalf_halfBytes_nil, fieldWord_wordBytes_nil, fieldByte_skipHalf,
    fieldHalf_skipHalf, fieldWord_skipHalf, fieldByte_skipWord, fieldHalf_skipWord, fieldWord_skipWord]
theorem trainReset (h : Head) (index : Byte) : Statement (.trainReset h index) := by
  intro r h' hr; simp only [Instr.request?, Option.some.injEq, Prod.mk.injEq] at hr; obtain ⟨rfl, rfl⟩ := hr
  simp [commandOf, payloadOf, fieldByte_cons_zero, fieldByte_cons_succ, fieldHalf_cons_succ, fieldWord_cons_succ,
    fieldHalf_halfBytes, fieldWord_wordBytes, fieldHalf_halfBytes_nil, fieldWord_wordBytes_nil, fieldByte_skipHalf,
    fieldHalf_skipHalf, fieldWord_skipHalf, fieldByte_skipWord, fieldHalf_skipWord, fieldWord_skipWord]
theorem trainUnlock (h : Head) (index : Byte) : Statement (.trainUnlock h index) := by
  intro r h' hr; simp only [Instr.request?, Option.some.injEq, Prod.mk.injEq] at hr; obtain ⟨rfl, rfl⟩ := hr
  simp [commandOf, payloadOf, fieldByte_cons_zero, fieldByte_cons_succ, fieldHalf_cons_succ, fieldWord_cons_succ,
    fieldHalf_halfBytes, fieldWord_wordBytes, fieldHalf_halfBytes_nil, fieldWord_wordBytes_nil, fieldByte_skipHalf,
    fieldHalf_skipHalf, fieldWord_skipHalf, fieldByte_skipWord, fieldHalf_skipWord, fieldWord_skipWord]
theorem trainPriority (h : Head) (side : Byte) (order : List Byte) : Statement (.trainPriority h side order) := by
  intro r h' hr; simp only [Instr.request?, Option.some.injEq, Prod.mk.injEq] at hr; obtain ⟨rfl, rfl⟩ := hr
  simp [commandOf, payloadOf, fieldByte_cons_zero, fieldByte_cons_succ, fieldHalf_cons_succ, fieldWord_cons_succ,
    fieldHalf_halfBytes, fieldWord_wordBytes, fieldHalf_halfBytes_nil, fieldWord_wordBytes_nil, fieldByte_skipHalf,
    fieldHalf_skipHalf, fieldWord_skipHalf, fieldByte_skipWord, fieldHalf_skipWord, fieldWord_skipWord]
theorem heaterAssign (h : Head) (index heater : Byte) : Statement (.heaterAssign h index heater) := by
  intro r h' hr; simp only [Instr.request?, Option.some.injEq, Prod.mk.injEq] at hr; obtain ⟨rfl, rfl⟩ := hr
  simp [commandOf, payloadOf, fieldByte_cons_zero, fieldByte_cons_succ, fieldHalf_cons_succ, fieldWord_cons_succ,
    fieldHalf_halfBytes, fieldWord_wordBytes, fieldHalf_halfBytes_nil, fieldWord_wordBytes_nil, fieldByte_skipHalf,
    fieldHalf_skipHalf, fieldWord_skipHalf, fieldByte_skipWord, fieldHalf_skipWord, fieldWord_skipWord]
theorem heaterTimer (h : Head) (timer : Byte) (period onTime : Half) : Statement (.heaterTimer h timer period onTime) := by
  intro r h' hr; simp only [Instr.request?, Option.some.injEq, Prod.mk.injEq] at hr; obtain ⟨rfl, rfl⟩ := hr
  simp [commandOf, payloadOf, fieldByte_cons_zero, fieldByte_cons_succ, fieldHalf_cons_succ, fieldWord_cons_succ,
    fieldHalf_halfBytes, fieldWord_wordBytes, fieldHalf_halfBytes_nil, fieldWord_wordBytes_nil, fieldByte_skipHalf,
    fieldHalf_skipHalf, fieldWord_skipHalf, fieldByte_skipWord, fieldHalf_skipWord, fieldWord_skipWord]
theorem readTrain (h : Head) (index : Byte) : Statement (.readTrain h index) := by
  intro r h' hr; simp only [Instr.request?, Option.some.injEq, Prod.mk.injEq] at hr; obtain ⟨rfl, rfl⟩ := hr
  simp [commandOf, payloadOf, fieldByte_cons_zero, fieldByte_cons_succ, fieldHalf_cons_succ, fieldWord_cons_succ,
    fieldHalf_halfBytes, fieldWord_wordBytes, fieldHalf_halfBytes_nil, fieldWord_wordBytes_nil, fieldByte_skipHalf,
    fieldHalf_skipHalf, fieldWord_skipHalf, fieldByte_skipWord, fieldHalf_skipWord, fieldWord_skipWord]
theorem patternWrite (h : Head) (a : PatternArgs) : Statement (.patternWrite h a) := by
  intro r h' hr; simp only [Instr.request?, Option.some.injEq, Prod.mk.injEq] at hr; obtain ⟨rfl, rfl⟩ := hr
  simp [commandOf, payloadOf, fieldByte_cons_zero, fieldByte_cons_succ, fieldHalf_cons_succ, fieldWord_cons_succ,
    fieldHalf_halfBytes, fieldWord_wordBytes, fieldHalf_halfBytes_nil, fieldWord_wordBytes_nil, fieldByte_skipHalf,
    fieldHalf_skipHalf, fieldWord_skipHalf, fieldByte_skipWord, fieldHalf_skipWord, fieldWord_skipWord]
theorem patternRead (h : Head) (index : Byte) : Statement (.patternRead h index) := by
  intro r h' hr; simp only [Instr.request?, Option.some.injEq, Prod.mk.injEq] at hr; obtain ⟨rfl, rfl⟩ := hr
  simp [commandOf, payloadOf, fieldByte_cons_zero, fieldByte_cons_succ, fieldHalf_cons_succ, fieldWord_cons_succ,
    fieldHalf_halfBytes, fieldWord_wordBytes, fieldHalf_halfBytes_nil, fieldWord_wordBytes_nil, fieldByte_skipHalf,
    fieldHalf_skipHalf, fieldWord_skipHalf, fieldByte_skipWord, fieldHalf_skipWord, fieldWord_skipWord]
theorem orderState (h : Head) : Statement (.orderState h) := by
  intro r h' hr; simp only [Instr.request?, Option.some.injEq, Prod.mk.injEq] at hr; obtain ⟨rfl, rfl⟩ := hr
  rfl
theorem orderRelease (h : Head) (direction : Byte) : Statement (.orderRelease h direction) := by
  intro r h' hr; simp only [Instr.request?, Option.some.injEq, Prod.mk.injEq] at hr; obtain ⟨rfl, rfl⟩ := hr
  simp [commandOf, payloadOf, fieldByte_cons_zero, fieldByte_cons_succ, fieldHalf_cons_succ, fieldWord_cons_succ,
    fieldHalf_halfBytes, fieldWord_wordBytes, fieldHalf_halfBytes_nil, fieldWord_wordBytes_nil, fieldByte_skipHalf,
    fieldHalf_skipHalf, fieldWord_skipHalf, fieldByte_skipWord, fieldHalf_skipWord, fieldWord_skipWord]
theorem clockSet (h : Head) (n : Word) (dayPos seconds : Half) : Statement (.clockSet h n dayPos seconds) := by
  intro r h' hr; simp only [Instr.request?, Option.some.injEq, Prod.mk.injEq] at hr; obtain ⟨rfl, rfl⟩ := hr
  simp [commandOf, payloadOf, fieldByte_cons_zero, fieldByte_cons_succ, fieldHalf_cons_succ, fieldWord_cons_succ,
    fieldHalf_halfBytes, fieldWord_wordBytes, fieldHalf_halfBytes_nil, fieldWord_wordBytes_nil, fieldByte_skipHalf,
    fieldHalf_skipHalf, fieldWord_skipHalf, fieldByte_skipWord, fieldHalf_skipWord, fieldWord_skipWord]
theorem clockRead (h : Head) : Statement (.clockRead h) := by
  intro r h' hr; simp only [Instr.request?, Option.some.injEq, Prod.mk.injEq] at hr; obtain ⟨rfl, rfl⟩ := hr
  rfl
theorem paramWrite (h : Head) (index : Byte) (value : Word) : Statement (.paramWrite h index value) := by
  intro r h' hr; simp only [Instr.request?, Option.some.injEq, Prod.mk.injEq] at hr; obtain ⟨rfl, rfl⟩ := hr
  simp [commandOf, payloadOf, fieldByte_cons_zero, fieldByte_cons_succ, fieldHalf_cons_succ, fieldWord_cons_succ,
    fieldHalf_halfBytes, fieldWord_wordBytes, fieldHalf_halfBytes_nil, fieldWord_wordBytes_nil, fieldByte_skipHalf,
    fieldHalf_skipHalf, fieldWord_skipHalf, fieldByte_skipWord, fieldHalf_skipWord, fieldWord_skipWord]
theorem paramRead (h : Head) (index : Byte) : Statement (.paramRead h index) := by
  intro r h' hr; simp only [Instr.request?, Option.some.injEq, Prod.mk.injEq] at hr; obtain ⟨rfl, rfl⟩ := hr
  simp [commandOf, payloadOf, fieldByte_cons_zero, fieldByte_cons_succ, fieldHalf_cons_succ, fieldWord_cons_succ,
    fieldHalf_halfBytes, fieldWord_wordBytes, fieldHalf_halfBytes_nil, fieldWord_wordBytes_nil, fieldByte_skipHalf,
    fieldHalf_skipHalf, fieldWord_skipHalf, fieldByte_skipWord, fieldHalf_skipWord, fieldWord_skipWord]
theorem lockLimits (h : Head) : Statement (.lockLimits h) := by
  intro r h' hr; simp only [Instr.request?, Option.some.injEq, Prod.mk.injEq] at hr; obtain ⟨rfl, rfl⟩ := hr
  rfl
theorem supervisionSet (h : Head) (a : SupervisionArgs) : Statement (.supervisionSet h a) := by
  intro r h' hr; simp only [Instr.request?, Option.some.injEq, Prod.mk.injEq] at hr; obtain ⟨rfl, rfl⟩ := hr
  simp [commandOf, payloadOf, fieldByte_cons_zero, fieldByte_cons_succ, fieldHalf_cons_succ, fieldWord_cons_succ,
    fieldHalf_halfBytes, fieldWord_wordBytes, fieldHalf_halfBytes_nil, fieldWord_wordBytes_nil, fieldByte_skipHalf,
    fieldHalf_skipHalf, fieldWord_skipHalf, fieldByte_skipWord, fieldHalf_skipWord, fieldWord_skipWord]
theorem keepalive (h : Head) : Statement (.keepalive h) := by
  intro r h' hr; simp only [Instr.request?, Option.some.injEq, Prod.mk.injEq] at hr; obtain ⟨rfl, rfl⟩ := hr
  rfl
theorem forceExpiry (h : Head) : Statement (.forceExpiry h) := by
  intro r h' hr; simp only [Instr.request?, Option.some.injEq, Prod.mk.injEq] at hr; obtain ⟨rfl, rfl⟩ := hr
  rfl
theorem resume (h : Head) : Statement (.resume h) := by
  intro r h' hr; simp only [Instr.request?, Option.some.injEq, Prod.mk.injEq] at hr; obtain ⟨rfl, rfl⟩ := hr
  rfl
theorem recover (h : Head) : Statement (.recover h) := by
  intro r h' hr; simp only [Instr.request?, Option.some.injEq, Prod.mk.injEq] at hr; obtain ⟨rfl, rfl⟩ := hr
  rfl
theorem enterHold (h : Head) : Statement (.enterHold h) := by
  intro r h' hr; simp only [Instr.request?, Option.some.injEq, Prod.mk.injEq] at hr; obtain ⟨rfl, rfl⟩ := hr
  rfl
theorem enterSafe (h : Head) : Statement (.enterSafe h) := by
  intro r h' hr; simp only [Instr.request?, Option.some.injEq, Prod.mk.injEq] at hr; obtain ⟨rfl, rfl⟩ := hr
  rfl
theorem frameWrittenWhileBusy : Statement .frameWrittenWhileBusy := by intro r h hr; simp [Instr.request?] at hr
theorem frameFailingChecks (check : FrameFault) : Statement (.frameFailingChecks check) := by intro r h hr; simp [Instr.request?] at hr
theorem unknownRequest (client : Client) (code : Byte) : Statement (.unknownRequest client code) := by intro r h hr; simp [Instr.request?] at hr

end Laws.RequestRow

end Sys2Proof
end

