-- ==== Sys2Proof/Laws/Tables.lean ====
section
/-! SUPPORT. Reading one record after one update: trains, stores, activation records, the table and the port. -/

namespace Sys2Proof

section
variable {α β : Type}

@[simp] theorem PerTrain.get_set (p : PerTrain α) (t u : TrainIx) (v : α) :
    (p.set t v).get u = if u = t then v else p.get u := by cases t <;> cases u <;> rfl
@[simp] theorem PerTrain.get_map (p : PerTrain α) (f : α → β) (t : TrainIx) : (p.map f).get t = f (p.get t) := by
  cases t <;> rfl
@[simp] theorem PerTrain.get_ofFn (f : TrainIx → α) (t : TrainIx) : (PerTrain.ofFn f).get t = f t := by cases t <;> rfl
@[simp] theorem PerStore.get_set (p : PerStore α) (i j : StoreIx) (v : α) :
    (p.set i v).get j = if j = i then v else p.get j := by cases i <;> cases j <;> rfl
@[simp] theorem PerStore.get_ofFn (f : StoreIx → α) (i : StoreIx) : (PerStore.ofFn f).get i = f i := by cases i <;> rfl

theorem PerTrain.ext_get {p q : PerTrain α} (h : ∀ t, p.get t = q.get t) : p = q := by
  cases p; cases q
  have h0 := h .c0; have h1 := h .c1; have h2 := h .c2; have h3 := h .c3
  have h4 := h .e0; have h5 := h .e1; have h6 := h .e2
  simp_all [PerTrain.get]

end

@[simp] theorem TrainIx.mem_all (t : TrainIx) : t ∈ TrainIx.all := by cases t <;> decide
@[simp] theorem StoreIx.mem_all (i : StoreIx) : i ∈ StoreIx.all := by cases i <;> decide
@[simp] theorem Side.mem_trains (t : TrainIx) (d : Side) : t ∈ d.trains ↔ t.side = d := by
  cases t <;> cases d <;> decide

namespace Machine

variable (s : State)

/-! ### A train -/

@[simp] theorem setTrain_train (t u : TrainIx) (v : Train) :
    (s.setTrain t v).train u = if u = t then v else s.train u := by simp [State.setTrain, State.train]
@[simp] theorem setTrain_store (t : TrainIx) (v : Train) (i : StoreIx) : (s.setTrain t v).store i = s.store i := rfl
@[simp] theorem setTrain_limits (t : TrainIx) (v : Train) : (s.setTrain t v).limits = s.limits := rfl
@[simp] theorem setTrain_mode (t : TrainIx) (v : Train) : (s.setTrain t v).mode = s.mode := rfl
@[simp] theorem setTrain_account (t : TrainIx) (v : Train) : (s.setTrain t v).account = s.account := rfl

/-! ### A store -/

@[simp] theorem setStore_store (i j : StoreIx) (v : Store) :
    (s.setStore i v).store j = if j = i then v else s.store j := by simp [State.setStore, State.store]
@[simp] theorem setStore_train (i : StoreIx) (v : Store) (t : TrainIx) : (s.setStore i v).train t = s.train t := rfl
@[simp] theorem setStore_limits (i : StoreIx) (v : Store) : (s.setStore i v).limits = s.limits := rfl
@[simp] theorem setSummary_store (v : HeatSummary) (i : StoreIx) : (s.setSummary v).store i = s.store i := rfl
@[simp] theorem setSummary_train (v : HeatSummary) (t : TrainIx) : (s.setSummary v).train t = s.train t := rfl
@[simp] theorem releaseStore_train (t u : TrainIx) : (releaseStore t s).train u = s.train u := rfl
@[simp] theorem releaseStore_store (t : TrainIx) (i : StoreIx) :
    (releaseStore t s).store i = { s.store i with trains := (s.store i).trains.filter (· ≠ t) } := by
  simp [releaseStore, State.store]

/-! ### An activation record -/

@[simp] theorem setAct_act (d e : Dir) (v : Activation) : (s.setAct d v).act e = if e = d then v else s.act e := by
  cases d <;> cases e <;> rfl
@[simp] theorem setAct_patterns (d : Dir) (v : Activation) : (s.setAct d v).orders.patterns = s.orders.patterns := by
  cases d <;> rfl
@[simp] theorem setAct_table (d : Dir) (v : Activation) : (s.setAct d v).table = s.table := by cases d <;> rfl
@[simp] theorem setAct_mode (d : Dir) (v : Activation) : (s.setAct d v).mode = s.mode := by cases d <;> rfl
@[simp] theorem raise_act (n : Notice) (d : Dir) : (raise n s).act d = s.act d := by cases d <;> rfl

/-! ### Notices and replies -/

@[simp] theorem raise_latched (n : Notice) : (raise n s).port.latched = s.port.latched ||| n.bit := rfl
@[simp] theorem raise_reply (n : Notice) : (raise n s).port.reply = s.port.reply := rfl
@[simp] theorem raise_inFlight (n : Notice) : (raise n s).port.inFlight = s.port.inFlight := rfl
@[simp] theorem raise_mask (n : Notice) : (raise n s).port.mask = s.port.mask := rfl
@[simp] theorem answer_reply (c : Byte) (r : Result) (p : List Byte) : (answer c r p s).port.reply = replyFrame c r p := rfl
@[simp] theorem answer_inFlight (c : Byte) (r : Result) (p : List Byte) : (answer c r p s).port.inFlight = none := rfl
@[simp] theorem answer_latched (c : Byte) (r : Result) (p : List Byte) :
    (answer c r p s).port.latched = s.port.latched := rfl
@[simp] theorem answer_mask (c : Byte) (r : Result) (p : List Byte) : (answer c r p s).port.mask = s.port.mask := rfl
@[simp] theorem answer_cursor (c : Byte) (r : Result) (p : List Byte) : (answer c r p s).port.cursor = s.port.cursor := rfl

/-! ### Power-on reset held (R1) -/

/-- Where no power-on reset is held an event is taken. -/
theorem unlessHeld_taken (f : State → State) (h : inReset s = false) : unlessHeld f s = f s := by simp [unlessHeld, h]

/-- While power-on reset is held an event changes nothing. -/
theorem unlessHeld_held (f : State → State) (h : inReset s = true) : unlessHeld f s = s := by simp [unlessHeld, h]

/-! ### What the port does with a request (R184, R186, R200) -/

/-- Everything takeRequest can do. -/
theorem takeRequest_cases (r : Request) (h : Head) (owner : State → State) :
    (inReset s = true ∧ takeRequest r h owner s = s)
      ∨ (inReset s = false ∧ busy s = true ∧ takeRequest r h owner s = discardFrame s)
      ∨ (inReset s = false ∧ busy s = false ∧ permitted r h.client = false
          ∧ takeRequest r h owner s = answer r.code .notPermitted [] s.accepted)
      ∨ (inReset s = false ∧ busy s = false ∧ permitted r h.client = true ∧ r.lengthOk h.len = false
          ∧ takeRequest r h owner s = answer r.code .badArgument [] s.accepted)
      ∨ (inReset s = false ∧ busy s = false ∧ permitted r h.client = true ∧ r.lengthOk h.len = true
          ∧ takeRequest r h owner s = owner s.accepted) := by
  unfold takeRequest State.accepted
  cases inReset s <;> cases busy s <;> cases permitted r h.client <;> cases r.lengthOk h.len <;> simp

/-- A request in good order reaches its owner. -/
theorem takeRequest_accepted {r : Request} {h : Head} (owner : State → State) (hn : inReset s = false)
    (hb : busy s = false)
    (hp : permitted r h.client = true) (hl : r.lengthOk h.len = true) :
    takeRequest r h owner s = owner s.accepted := by simp [takeRequest, State.accepted, hn, hb, hp, hl]

/-- A reply is never there together with a request in flight after an answer (R187). -/
theorem answer_not_busy (c : Byte) (r : Result) (p : List Byte) : busy (answer c r p s) = false := rfl

/-- What acceptance leaves (R184). -/
@[simp] theorem accepted_reply : s.accepted.port.reply = [] := by
  unfold State.accepted refreshAny; split <;> rfl
@[simp] theorem accepted_overrun : s.accepted.port.overrun = false := by
  unfold State.accepted refreshAny; split <;> rfl
@[simp] theorem accepted_train (t : TrainIx) : s.accepted.train t = s.train t := by
  unfold State.accepted refreshAny; split <;> rfl

/-! ### A basis change (R77, R78, R94) -/

/-- With no trial in hand a basis change starts a full walk, or is dropped while the engine is UNAVAILABLE and its two sources are
not both there. -/
theorem basisChange_noTrial (ht : s.proj.trial = .none) :
    basisChange s =
      if s.proj.state = .unavailable ∧ ¬ (s.account.basis = .based ∧ s.clock.running = true) then s else startWalk s := by
  cases hs : s.proj.state <;> simp [basisChange, basisChangeAt, startWalk, hs]
  · by_cases h : s.account.basis = .based ∧ s.clock.running = true
    · simp only [h, and_self, if_true]
      simp
    · rw [if_neg h, if_pos]
      intro h1; by_contra h2
      exact h ⟨h1, by simpa using h2⟩
  all_goals simp [countRestart, startWalkAt, ht]

end Machine

end Sys2Proof
end

