-- ==== Sys2Proof/Laws/Requests.lean ====
section
/-! SUPPORT. A request in good order is its owner's work on the accepted state: one lemma per request, and what acceptance
leaves. -/

set_option Elab.async false

namespace Sys2Proof.Machine

variable {s : State}

/-- Acceptance empties the reply, clears OVERRUN and may reload the supervision timer; nothing else moves (R184, R186). -/
theorem accepted_eq (s : State) : ∃ n, s.accepted =
    { s with
      port := { s.port with reply := [], overrun := false }
      supervision := { s.supervision with remaining := n } } := by
  unfold State.accepted refreshAny; split
  · exact ⟨s.supervision.timeout, rfl⟩
  · exact ⟨s.supervision.remaining, rfl⟩

/-- A request in good order reaches its owner. -/
theorem goodOrder_takes {i : Instr} {r : Request} {h : Head} (owner : State → State) (hi : i.request? = some (r, h))
    (hg : InGoodOrder i s) : takeRequest r h owner s = owner s.accepted := by
  obtain ⟨hn, hb, r', h', hr, hp, hl⟩ := hg
  rw [hi] at hr; obtain ⟨rfl, rfl⟩ := Prod.mk.inj (Option.some.inj hr)
  exact takeRequest_accepted s owner hn hb hp hl

theorem exec_identify (h : Head) (hg : InGoodOrder (.identify h) s) :
    exec (.identify h) s = .next (answer Request.identify.code .ok identity s.accepted) :=
  congrArg Host.Outcome.next (goodOrder_takes _ rfl hg)
theorem exec_notices (h : Head) (clear : Half) (hg : InGoodOrder (.notices h clear) s) :
    exec (.notices h clear) s = .next (ownNotices clear s.accepted) :=
  congrArg Host.Outcome.next (goodOrder_takes _ rfl hg)
theorem exec_noticeMaskSet (h : Head) (set : Half) (hg : InGoodOrder (.noticeMaskSet h set) s) :
    exec (.noticeMaskSet h set) s = .next (ownMaskSet set s.accepted) :=
  congrArg Host.Outcome.next (goodOrder_takes _ rfl hg)
theorem exec_noticeMaskClear (h : Head) (set : Half) (hg : InGoodOrder (.noticeMaskClear h set) s) :
    exec (.noticeMaskClear h set) s = .next (ownMaskClear set s.accepted) :=
  congrArg Host.Outcome.next (goodOrder_takes _ rfl hg)
theorem exec_restart (h : Head) (hg : InGoodOrder (.restart h) s) :
    exec (.restart h) s = .next (ownRestart s.accepted) :=
  congrArg Host.Outcome.next (goodOrder_takes _ rfl hg)
theorem exec_postReading (h : Head) (r : ReadingArgs) (hg : InGoodOrder (.postReading h r) s) :
    exec (.postReading h r) s = .next (ownPostReading r s.accepted) :=
  congrArg Host.Outcome.next (goodOrder_takes _ rfl hg)
theorem exec_readAccount (h : Head) (hg : InGoodOrder (.readAccount h) s) :
    exec (.readAccount h) s = .next (answer Request.readAccount.code .ok (accountBytes s.accepted.account) s.accepted) :=
  congrArg Host.Outcome.next (goodOrder_takes _ rfl hg)
theorem exec_rebase (h : Head) (hg : InGoodOrder (.rebase h) s) :
    exec (.rebase h) s = .next (ownRebase s.accepted) :=
  congrArg Host.Outcome.next (goodOrder_takes _ rfl hg)
theorem exec_excursionClear (h : Head) (side : Byte) (hg : InGoodOrder (.excursionClear h side) s) :
    exec (.excursionClear h side) s = .next (ownExcursionClear side s.accepted) :=
  congrArg Host.Outcome.next (goodOrder_takes _ rfl hg)
theorem exec_storeService (h : Head) (index : Byte) (direction : Byte) (hg : InGoodOrder (.storeService h index direction) s) :
    exec (.storeService h index direction) s = .next (ownStoreService index direction s.accepted) :=
  congrArg Host.Outcome.next (goodOrder_takes _ rfl hg)
theorem exec_storeSet (h : Head) (index : Byte) (content : Word) (hg : InGoodOrder (.storeSet h index content) s) :
    exec (.storeSet h index content) s = .next (ownStoreSet index content s.accepted) :=
  congrArg Host.Outcome.next (goodOrder_takes _ rfl hg)
theorem exec_readStore (h : Head) (index : Byte) (hg : InGoodOrder (.readStore h index) s) :
    exec (.readStore h index) s = .next (ownReadStore index s.accepted) :=
  congrArg Host.Outcome.next (goodOrder_takes _ rfl hg)
theorem exec_admit (h : Head) (a : AdmitArgs) (hg : InGoodOrder (.admitEntry h a) s) :
    exec (.admitEntry h a) s = .next (ownAdmit a s.accepted) :=
  congrArg Host.Outcome.next (goodOrder_takes _ rfl hg)
theorem exec_amend (h : Head) (a : AmendArgs) (hg : InGoodOrder (.amend h a) s) :
    exec (.amend h a) s = .next (ownAmend h.client a s.accepted) :=
  congrArg Host.Outcome.next (goodOrder_takes _ rfl hg)
theorem exec_withdraw (h : Head) (id : Half) (hg : InGoodOrder (.withdraw h id) s) :
    exec (.withdraw h id) s = .next (ownWithdraw h.client id s.accepted) :=
  congrArg Host.Outcome.next (goodOrder_takes _ rfl hg)
theorem exec_settle (h : Head) (id : Half) (hg : InGoodOrder (.settle h id) s) :
    exec (.settle h id) s = .next (ownSettle id s.accepted) :=
  congrArg Host.Outcome.next (goodOrder_takes _ rfl hg)
theorem exec_queryEntry (h : Head) (id : Half) (hg : InGoodOrder (.queryEntry h id) s) :
    exec (.queryEntry h id) s = .next (ownQueryEntry id s.accepted) :=
  congrArg Host.Outcome.next (goodOrder_takes _ rfl hg)
theorem exec_findInterval (h : Head) (n : Word) (first : Word) (seq : Word) (hg : InGoodOrder (.findInterval h n first seq) s) :
    exec (.findInterval h n first seq) s = .next (ownFindInterval n first seq s.accepted) :=
  congrArg Host.Outcome.next (goodOrder_takes _ rfl hg)
theorem exec_findReference (h : Head) (tag : Half) (first : Word) (seq : Word) (hg : InGoodOrder (.findReference h tag first seq) s) :
    exec (.findReference h tag first seq) s = .next (ownFindReference tag first seq s.accepted) :=
  congrArg Host.Outcome.next (goodOrder_takes _ rfl hg)
theorem exec_projectionState (h : Head) (hg : InGoodOrder (.projectionState h) s) :
    exec (.projectionState h) s = .next (answer Request.projectionState.code .ok (projectionBytes s.accepted.proj) s.accepted) :=
  congrArg Host.Outcome.next (goodOrder_takes _ rfl hg)
theorem exec_readProjection (h : Head) (row : Byte) (count : Byte) (reload : Byte) (view : Byte) (hg : InGoodOrder (.readProjection h row count reload view) s) :
    exec (.readProjection h row count reload view) s = .next (ownReadProjection row count reload view s.accepted) :=
  congrArg Host.Outcome.next (goodOrder_takes _ rfl hg)
theorem exec_readNext (h : Head) (hg : InGoodOrder (.readNext h) s) :
    exec (.readNext h) s = .next (ownReadNext s.accepted) :=
  congrArg Host.Outcome.next (goodOrder_takes _ rfl hg)
theorem exec_trainService (h : Head) (index : Byte) (direction : Byte) (hg : InGoodOrder (.trainService h index direction) s) :
    exec (.trainService h index direction) s = .next (ownTrainService index direction s.accepted) :=
  congrArg Host.Outcome.next (goodOrder_takes _ rfl hg)
theorem exec_trainReset (h : Head) (index : Byte) (hg : InGoodOrder (.trainReset h index) s) :
    exec (.trainReset h index) s = .next (ownTrainReset index s.accepted) :=
  congrArg Host.Outcome.next (goodOrder_takes _ rfl hg)
theorem exec_trainUnlock (h : Head) (index : Byte) (hg : InGoodOrder (.trainUnlock h index) s) :
    exec (.trainUnlock h index) s = .next (ownTrainUnlock index s.accepted) :=
  congrArg Host.Outcome.next (goodOrder_takes _ rfl hg)
theorem exec_trainPriority (h : Head) (side : Byte) (order : List Byte) (hg : InGoodOrder (.trainPriority h side order) s) :
    exec (.trainPriority h side order) s = .next (ownTrainPriority side order s.accepted) :=
  congrArg Host.Outcome.next (goodOrder_takes _ rfl hg)
theorem exec_heaterAssign (h : Head) (index : Byte) (heater : Byte) (hg : InGoodOrder (.heaterAssign h index heater) s) :
    exec (.heaterAssign h index heater) s = .next (ownHeaterAssign index heater s.accepted) :=
  congrArg Host.Outcome.next (goodOrder_takes _ rfl hg)
theorem exec_heaterTimer (h : Head) (timer : Byte) (period : Half) (onTime : Half) (hg : InGoodOrder (.heaterTimer h timer period onTime) s) :
    exec (.heaterTimer h timer period onTime) s = .next (ownHeaterTimer timer period onTime s.accepted) :=
  congrArg Host.Outcome.next (goodOrder_takes _ rfl hg)
theorem exec_readTrain (h : Head) (index : Byte) (hg : InGoodOrder (.readTrain h index) s) :
    exec (.readTrain h index) s = .next (ownReadTrain index s.accepted) :=
  congrArg Host.Outcome.next (goodOrder_takes _ rfl hg)
theorem exec_patternWrite (h : Head) (a : PatternArgs) (hg : InGoodOrder (.patternWrite h a) s) :
    exec (.patternWrite h a) s = .next (ownPatternWrite a s.accepted) :=
  congrArg Host.Outcome.next (goodOrder_takes _ rfl hg)
theorem exec_patternRead (h : Head) (index : Byte) (hg : InGoodOrder (.patternRead h index) s) :
    exec (.patternRead h index) s = .next (ownPatternRead index s.accepted) :=
  congrArg Host.Outcome.next (goodOrder_takes _ rfl hg)
theorem exec_orderState (h : Head) (hg : InGoodOrder (.orderState h) s) :
    exec (.orderState h) s = .next (answer Request.orderState.code .ok (orderStateBytes s.accepted) s.accepted) :=
  congrArg Host.Outcome.next (goodOrder_takes _ rfl hg)
theorem exec_orderRelease (h : Head) (direction : Byte) (hg : InGoodOrder (.orderRelease h direction) s) :
    exec (.orderRelease h direction) s = .next (ownOrderRelease direction s.accepted) :=
  congrArg Host.Outcome.next (goodOrder_takes _ rfl hg)
theorem exec_clockSet (h : Head) (n : Word) (dayPos : Half) (seconds : Half) (hg : InGoodOrder (.clockSet h n dayPos seconds) s) :
    exec (.clockSet h n dayPos seconds) s = .next (ownClockSet n dayPos seconds s.accepted) :=
  congrArg Host.Outcome.next (goodOrder_takes _ rfl hg)
theorem exec_clockRead (h : Head) (hg : InGoodOrder (.clockRead h) s) :
    exec (.clockRead h) s = .next (answer Request.clockRead.code .ok (clockReadBytes s.accepted) s.accepted) :=
  congrArg Host.Outcome.next (goodOrder_takes _ rfl hg)
theorem exec_paramWrite (h : Head) (index : Byte) (value : Word) (hg : InGoodOrder (.paramWrite h index value) s) :
    exec (.paramWrite h index value) s = .next (ownParamWrite index value s.accepted) :=
  congrArg Host.Outcome.next (goodOrder_takes _ rfl hg)
theorem exec_paramRead (h : Head) (index : Byte) (hg : InGoodOrder (.paramRead h index) s) :
    exec (.paramRead h index) s = .next (ownParamRead index s.accepted) :=
  congrArg Host.Outcome.next (goodOrder_takes _ rfl hg)
theorem exec_lockLimits (h : Head) (hg : InGoodOrder (.lockLimits h) s) :
    exec (.lockLimits h) s = .next (ownLockLimits s.accepted) :=
  congrArg Host.Outcome.next (goodOrder_takes _ rfl hg)
theorem exec_supervisionSet (h : Head) (a : SupervisionArgs) (hg : InGoodOrder (.supervisionSet h a) s) :
    exec (.supervisionSet h a) s = .next (ownSupervisionSet a s.accepted) :=
  congrArg Host.Outcome.next (goodOrder_takes _ rfl hg)
theorem exec_keepalive (h : Head) (hg : InGoodOrder (.keepalive h) s) :
    exec (.keepalive h) s = .next (ownKeepalive s.accepted) :=
  congrArg Host.Outcome.next (goodOrder_takes _ rfl hg)
theorem exec_forceExpiry (h : Head) (hg : InGoodOrder (.forceExpiry h) s) :
    exec (.forceExpiry h) s = .next (ownForceExpiry s.accepted) :=
  congrArg Host.Outcome.next (goodOrder_takes _ rfl hg)
theorem exec_resume (h : Head) (hg : InGoodOrder (.resume h) s) :
    exec (.resume h) s = .next (ownResume s.accepted) :=
  congrArg Host.Outcome.next (goodOrder_takes _ rfl hg)
theorem exec_recover (h : Head) (hg : InGoodOrder (.recover h) s) :
    exec (.recover h) s = .next (ownRecover s.accepted) :=
  congrArg Host.Outcome.next (goodOrder_takes _ rfl hg)
theorem exec_enterHold (h : Head) (hg : InGoodOrder (.enterHold h) s) :
    exec (.enterHold h) s = .next (ownEnterHold s.accepted) :=
  congrArg Host.Outcome.next (goodOrder_takes _ rfl hg)
theorem exec_enterSafe (h : Head) (hg : InGoodOrder (.enterSafe h) s) :
    exec (.enterSafe h) s = .next (ownEnterSafe s.accepted) :=
  congrArg Host.Outcome.next (goodOrder_takes _ rfl hg)

end Sys2Proof.Machine
end

