-- ==== Sys2Proof/Tests/Slice0.lean ====
section
/-! SUPPORT. Tests. Part one checks well-formedness, frames written out byte by byte, and the figures of the spec's worked examples;
the spec is the source of every expected value. Part two shows, for each statement with hypotheses, states and operands that meet
them, one for each clause. -/

set_option Elab.async false

namespace Sys2Proof.Tests

open Sys2Proof Sys2Proof.Machine

/-! ### Heads, states and one step -/

/-- A plant-client request with a payload of n bytes. -/
def p (n : Nat) : Head := ⟨.plant, n⟩

/-- A trading-client request with a payload of n bytes. -/
def q (n : Nat) : Head := ⟨.trading, n⟩

/-- The state a command leaves. -/
def after (c : Instr) (s : State) : State :=
  match exec c s with
  | .next t => t
  | _ => s

/-- The states that commands leave one after another. -/
def runs (cs : List Instr) (s : State) : State := cs.foldl (fun s c => after c s) s

/-- A train record in a state. -/
def at' (st : TrainState) (x : TrainIx) : Train := { Train.afterReset x false with state := st, stateTimer := 0 }

/-- A part in NORMAL at interval 5,000: BASED at 30,000,000 kg and 6,913 kPa (3,180 dK) with a fresh reading, every train IDLE, the
table empty and the projection STALE. -/
def base : State :=
  startWalk
    { State.reset with
      account :=
        { State.reset.account with
          basis := .based, mass := 30000000, pCalc := 6913, pMeas := 6913, tMeas := 3180, stale := false
          readingSeen := true }
      trains := { State.reset.trains with train := PerTrain.ofFn (at' .idle) }
      clock := { running := true, n := 5000, s := 5, dayPos := 3, lastCapture := none }
      mode := .normal
      locked := true }

/-- base with its one train changed. -/
def withTrain (x : TrainIx) (f : Train → Train) (s : State) : State := s.setTrain x (f (s.train x))

/-- An ACTIVE charge entry, an ACTIVE reserve and an ADMITTED discharge entry. -/
def entryA : Entry :=
  { id := 1, kind := .energyCharge, first := 4999, span := 4, power := 40000, price := 4200, reference := 7, seq := 1
    status := .active, delivered := 9000, shortCount := 0 }
def entryU : Entry :=
  { id := 2, kind := .reserveUp, first := 5000, span := 2, power := 20000, price := 10, reference := 8, seq := 2
    status := .active, delivered := 0, shortCount := 0 }
def entryC : Entry :=
  { id := 3, kind := .energyDischarge, first := 5003, span := 1, power := 30000, price := 9000, reference := 7, seq := 3
    status := .admitted, delivered := 0, shortCount := 0 }

/-- base with C0 RUNNING at 40,000 kW on HS2, three entries, an activation, a supervision timer that counts, and a VALID projection
of 192 like rows. -/
def plant : State :=
  let s := withTrain .c0 (fun v => { v with state := .running, setpoint := 40000, startClass := .hot, runTime := 100 }) base
  let s : State :=
    { s with
      account := { s.account with power := ⟨40000, 0, 0, 0, 0, 0, 0⟩ }
      heat := { s.heat with store := ⟨⟨false, 500000000, []⟩, ⟨true, 0, []⟩, ⟨false, 1000000, [.c0]⟩⟩ }
      table := { entries := [entryA, entryU, entryC], nextId := 4, lastSeq := 3 }
      orders := { s.orders with up := { Activation.blank with state := .active, level := 60, holdLeft := 30 } }
      supervision := { s.supervision with timeout := 10, remaining := 6, window := true } }
  { s with
    proj :=
      { s.proj with
        state := .valid, walk := none, walkBasis := some (walkInputs s), completed := 812
        rows := List.replicate 192 { Row.blank with massEnd := 30000000, pEnd := 6913, heatEnd := 500000 } } }

/-- plant with a full walk running. -/
def walking : State := startWalk plant

/-- A part in COMMISSIONING, BASED and with its clock running. -/
def comm : State := { base with mode := .commissioning, locked := false }

/-- The candidate of an ADMIT of 10,000 kW of charge in interval 5,002. -/
def candidate : Candidate :=
  ⟨{ id := 0, kind := .energyCharge, first := 5002, span := 1, power := 10000, price := 5, reference := 0, seq := 0
     status := .admitted, delivered := 0, shortCount := 0 }, false⟩

/-- plant with the trial of a candidate in hand for a request. -/
def trying (t : Trial) (f : InFlight) (s : State) : State :=
  { s with proj := { s.proj with trial := t }, port := { s.port with inFlight := some f } }

/-! ### Well-formedness -/

theorem test_wellFormed_accepts : (Instr.storeSet (p 5) 2 90000).wellFormed = true := by decide +kernel
theorem test_wellFormed_refuses_length : (Instr.storeSet (p 4) 2 90000).wellFormed = false := by decide +kernel
theorem test_wellFormed_refuses_flag :
    (Instr.supervisionSet (p 5) ⟨10, 2, 0, 0, 1⟩).wellFormed = false := by decide +kernel
theorem test_wellFormed_refuses_code : (Instr.heaterAssign (p 2) 4 4).wellFormed = false := by decide +kernel
theorem test_wellFormed_refuses_fieldBits :
    (Instr.amend (p 13) ⟨1, 8, 0, 0, 0⟩).wellFormed = false := by decide +kernel
theorem test_wellFormed_refuses_listLength :
    (Instr.trainPriority (p 5) 0 [0, 1, 2]).wellFormed = false := by decide +kernel
theorem test_wellFormed_refuses_knownCode : (Instr.unknownRequest .plant 0x20).wellFormed = false := by decide +kernel
theorem test_wellFormed_refuses_repeatedPart :
    (Instr.boundary ⟨[.accountClose, .accountClose], []⟩).wellFormed = false
      ∧ (Instr.secondEvent ⟨[], [.trainsDay, .trainsDay]⟩).wellFormed = false := by decide +kernel

/-! ### Frames written out from R197 and R198 -/

theorem test_decode_noticeMaskSet :
    decodeFrame [0x04, 0x01, 0x03, 0x04, 0x10, 0x00] = .noticeMaskSet (p 2) 0x0410 := by decide +kernel
theorem test_decode_postReading :
    decodeFrame
      [0x24, 0x01, 0x10, 0x00, 0x00, 0x16, 0x44, 0x0C, 0x6C, 0x00, 0x00, 0x75, 0x30, 0x00, 0x00, 0x00, 0x00, 0x00, 0x00,
       0x00, 0x00, 0x00, 0x00, 0x00, 0x00, 0x00, 0x00, 0x00, 0x00, 0x00, 0x00, 0x00, 0x00, 0xFF, 0xFF, 0xFF, 0xFF, 0xA6]
      = .postReading (p 34) ⟨5700, 3180, ⟨30000, 0, 0, 0, 0, 0, 0xFFFFFFFF⟩⟩ := by decide +kernel
theorem test_decode_admit :
    decodeFrame
      [0x12, 0x02, 0x20, 0x02, 0x00, 0x00, 0x13, 0x8B, 0x04, 0x00, 0x00, 0x4E, 0x20, 0xFF, 0xFF, 0xFF, 0xFE, 0x0A, 0x07,
       0x93]
      = .admitEntry (q 16) ⟨2, 5003, 4, 20000, 0xFFFFFFFE, 0x0A07⟩ := by decide +kernel
theorem test_decode_amend :
    decodeFrame
      [0x0F, 0x02, 0x21, 0x01, 0x02, 0x05, 0x00, 0x00, 0x9C, 0x40, 0x00, 0x00, 0x00, 0x00, 0x00, 0x09, 0x09]
      = .amend (q 13) ⟨0x0102, 5, 40000, 0, 9⟩ := by decide +kernel
theorem test_decode_findInterval :
    decodeFrame [0x0E, 0x02, 0x25, 0x00, 0x00, 0x13, 0x8B, 0x00, 0x00, 0x13, 0x88, 0x00, 0x00, 0x00, 0x07, 0xD7]
      = .findInterval (q 12) 5003 5000 7 := by decide +kernel
theorem test_decode_readProjection :
    decodeFrame [0x06, 0x01, 0x29, 0x01, 0x10, 0x01, 0x00, 0x5B] = .readProjection (p 4) 1 16 1 0 := by decide +kernel
theorem test_decode_trainPriority :
    decodeFrame [0x06, 0x01, 0x33, 0x01, 0x06, 0x04, 0x05, 0x31] = .trainPriority (p 4) 1 [6, 4, 5] := by decide +kernel
theorem test_decode_heaterTimer :
    decodeFrame [0x07, 0x01, 0x35, 0x01, 0x02, 0x58, 0x00, 0x3C, 0x01] = .heaterTimer (p 5) 1 600 60 := by decide +kernel
theorem test_decode_patternWrite :
    decodeFrame [0x0F, 0x01, 0x38, 0x03, 0x01, 0x11, 0xFF, 0x22, 0x0F, 0x04, 0x02, 0x02, 0x58, 0x05, 0x01, 0x0A, 0x69]
      = .patternWrite (p 13) ⟨3, 1, 0x11, 0xFF, 0x22, 0x0F, 4, 2, 600, 5, 1, 10⟩ := by decide +kernel
theorem test_decode_clockSet :
    decodeFrame [0x0A, 0x01, 0x40, 0x01, 0x02, 0x03, 0x04, 0x00, 0x5F, 0x03, 0x83, 0x36]
      = .clockSet (p 8) 0x01020304 95 899 := by decide +kernel
theorem test_decode_paramWrite :
    decodeFrame [0x07, 0x01, 0x48, 0x29, 0x00, 0x00, 0x02, 0x8A, 0x15] = .paramWrite (p 5) 0x29 650 := by decide +kernel
theorem test_decode_supervisionSet :
    decodeFrame [0x07, 0x01, 0x4B, 0x0A, 0x01, 0x00, 0x01, 0x01, 0x3D] = .supervisionSet (p 5) ⟨10, 1, 0, 1, 1⟩ := by
  decide +kernel

/-- R185: a wrong CRC, a wrong length and a CLIENT of 3. -/
theorem test_decode_badFrames :
    decodeFrame [0x02, 0x01, 0x01, 0xC5] = .frameFailingChecks .crc
      ∧ decodeFrame [0x02, 0x01, 0x01] = .frameFailingChecks .length
      ∧ decodeFrame [0x02, 0x03, 0x01, crc8 [0x02, 0x03, 0x01]] = .frameFailingChecks .client := by decide +kernel

/-! ### The worked examples of the spec -/

/-- R197's IDENTIFY: its reply as a read transaction shifts it out, after the status byte of a NORMAL, locked part with a reply. -/
theorem test_identify_reply :
    (transactionOut (after (.identify (p 0)) base) [0x02, 0, 0, 0, 0, 0, 0, 0, 0]).drop 1
      = [0x06, 0x01, 0x00, 0x4F, 0x00, 0x72, 0x01, 0x23] := by decide +kernel
theorem test_statusByte : statusByte (after (.identify (p 0)) base) = 0b01000110#8 := by decide +kernel

/-- Chapter 01, worked figures. -/
theorem test_pressureFromMass : pressureFromMass Limits.default 30000000 3180 = 6913 := by decide +kernel
theorem test_massFromPressure : massFromPressure Limits.default 6913 3180 = 29998266 := by decide +kernel

/-- Chapter 01, a charging interval with rebase. -/
theorem test_boundary_rebases :
    let s := { base with account := { base.account with eC := 108000000, pMeas := 7030 } }
    let a := (after (.boundary ⟨[], []⟩) s).account
    a.mass = 30505976 ∧ a.pCalc = 7029 ∧ a.lastClose = ⟨240000, 0, true⟩ ∧ a.eC = 0 := by decide +kernel

/-- Chapter 01, a discharging close, in another order of responses. -/
theorem test_boundary_discharges :
    let s := { base with account := { base.account with eE := 180000000, pMeas := 6800 } }
    let a := (after (.boundary ⟨[.projectionBoundary, .tableBoundary, .accountClose], []⟩) s).account
    a.mass = 29492957 ∧ a.pCalc = 6796 ∧ a.lastClose = ⟨0, 507043, false⟩ := by decide +kernel

/-- Chapter 01, a high-side excursion, steps 2 to 7 and 11. -/
theorem test_postReading_excursion :
    let post := fun kpa : Word => Instr.postReading (p 34) ⟨kpa, 3180, ⟨0, 0, 0, 0, 0, 0, 0⟩⟩
    let s2 := after (post 7400) plant
    let s5 := runs [post 7350, post 7300] s2
    s2.account.excHi = .active ∧ (s2.train .c0).state = .stopping ∧ s5.account.excHi = .held
      ∧ (after (post 7420) s5).account.excHi = .active := by decide +kernel
theorem test_excursionClear :
    let s := { base with account := { base.account with excHi := .held } }
    (after (.excursionClear (p 1) 0) s).account.excHi = .clear ∧ (after (.excursionClear (p 1) 1) s).account.excHi = .held := by
  decide +kernel

/-- Chapter 01, the reading goes stale: the second that brings the age to 10 meters the setpoint. -/
theorem test_second_stale_meters_setpoint :
    let s := withTrain .c0 (fun v => { v with setpoint := 44600 })
      { plant with account := { plant.account with readingAge := 9, power := ⟨45000, 0, 0, 0, 0, 0, 0⟩ } }
    let t := after (.secondEvent ⟨[.accountSecond], []⟩) s
    t.account.stale = true ∧ t.account.eC = 44600 := by decide +kernel

/-- Chapter 02, moving heat. -/
theorem test_store_figures :
    let s := { plant with account := { plant.account with power := ⟨43334, 0, 0, 0, 43333, 0, 0⟩ } }
    delivery s .c0 = 28167 ∧ draw s .e0 = 31200 := by decide +kernel

/-- Chapter 02, every store fills, second 7. -/
theorem test_second_full_store_spills :
    let s0 := withTrain .c1 (fun v => { v with state := .running, setpoint := 40000 }) plant
    let s :=
      { s0 with
        account := { s0.account with power := ⟨40000, 40000, 0, 0, 0, 0, 0⟩ }
        heat :=
          { s0.heat with
            store := ⟨⟨false, 1799640000, []⟩, ⟨false, 1799640000, []⟩, ⟨false, 1799952000, [.c0, .c1]⟩⟩ } }
    let h := (after (.secondEvent ⟨[.storesSecond], []⟩) s).heat
    h.store.hs2 = ⟨false, 1800000000, []⟩ ∧ h.store.hs0 = ⟨false, 1799644000, [.c0, .c1]⟩ ∧ h.summary.reject = false := by
  decide +kernel

/-- Chapter 02, running low, second 1,320. -/
theorem test_second_taper :
    let run := fun v : Train => { v with state := .running, setpoint := 100000 }
    let s0 := withTrain .e0 run (withTrain .e1 run base)
    let s :=
      { s0 with
        account := { s0.account with power := ⟨0, 0, 0, 0, 100000, 100000, 0⟩ }
        heat := { s0.heat with store := ⟨⟨false, 50122000, [.e0, .e1]⟩, ⟨false, 0, []⟩, ⟨false, 40000000, []⟩⟩ } }
    let h := (after (.secondEvent ⟨[.storesSecond], []⟩) s).heat
    h.store.hs0.contentKj = 49978000 ∧ h.summary.taperCap = 219946 ∧ h.summary.taper = true := by decide +kernel

/-- R39: a full store loses 360 MJ, a store of 90,010 MJ loses 19 MJ. -/
theorem test_boundary_standing_loss :
    afterStandingLoss 20 1800000000 = 1799640000 ∧ afterStandingLoss 20 90010000 = 89991000 := by decide +kernel

/-- Chapter 03, steps 6 to 9: the boundary to 5,004 credits A and B, closes B and opens C. -/
theorem test_boundary_settles :
    let a := { entryA with first := 5003, span := 2, power := 100000, delivered := 0 }
    let b := { entryA with id := 2, seq := 2, first := 5003, span := 1, power := 50000, delivered := 0 }
    let c := { entryC with first := 5004 }
    let s :=
      { base with
        table := { entries := [a, b, c], nextId := 4, lastSeq := 3 }
        clock := { base.clock with n := 5003 }
        dispatch := { base.dispatch with schedKj := -135000000, delKj := -128250000 } }
    (after (.boundary ⟨[], []⟩) s).table.entries
      = [{ a with delivered := 23750, shortCount := 1 },
         { b with delivered := 11875, shortCount := 1, status := .curtailed }, { c with status := .active }] := by
  decide +kernel

/-- Chapter 03, SETTLE frees the slot. -/
theorem test_settle :
    let b := { entryA with status := .curtailed }
    (after (.settle (p 2) 1) { base with table := { entries := [b, entryC], nextId := 4, lastSeq := 3 } }).table.entries
      = [entryC] := by decide +kernel

/-- Chapter 04, one walk: row 0, and row 1 as it follows row 0. -/
theorem test_walk_rows :
    let s := { base with
      clock := { base.clock with n := 6000 }
      heat := { base.heat with summary := { base.heat.summary with pooledContent := 2000000 } } }
    let w := walkInputs s
    let e := [{ entryA with first := 6000, span := 1, power := 120000 },
      { entryC with id := 14, first := 6001, power := 200000 }, { entryU with id := 15, first := 6001, span := 1 }]
    let r0 := computeRow w e 0 (firstCarried w)
    let r1 := computeRow w e 1 (carriedFrom w r0)
    (r0.massEnd, r0.pStart, r0.pEnd, r0.heatEnd, r0.verdict) = (30240000, 6913, 6968, 2069785, .ok)
      ∧ (r1.massEnd, r1.pStart, r1.pEnd, r1.heatEnd, r1.quickE, r1.verdict)
        = (29732957, 6968, 6851, 1939796, 220000, .ok) := by decide +kernel

/-- Chapter 05, a cold start: the grant, and the READY that follows its last count. -/
theorem test_start :
    let s := requestStart .c0 base
    ((s.train .c0).state, (s.train .c0).stateTimer, (s.train .c0).startsToday) = (.starting, 1800, 1)
      ∧ permit s .c0 = true := by decide +kernel
theorem test_startingExpiry :
    let s := withTrain .c0 (fun v => { v with state := .starting, stateTimer := 1 }) base
    let t := after (.startingExpiry .c0) s
    ((t.train .c0).state, (t.train .c0).stateTimer, (t.train .c0).startClass) = (.ready, 900, .hot) := by decide +kernel
theorem test_stopTimeExpiry :
    let s := withTrain .c0 (fun v => { v with state := .stopping, stateTimer := 1 }) base
    (after (.stopTimeExpiry .c0) s).train .c0 = { s.train .c0 with state := .cooldown, stateTimer := 900 } := by
  decide +kernel

/-- R110: the third trip of the day locks the train out, and its store is released. -/
theorem test_trip_locks_out :
    let s := withTrain .c0 (fun v => { v with tripsToday := 2 }) plant
    let t := after (.tripAssertion .c0) s
    ((t.train .c0).state, (t.train .c0).tripsToday, trainStore t .c0) = (.lockedOut, 3, none) := by decide +kernel

/-- Chapter 06, R142's shares. -/
theorem test_shares :
    let s := { base with dispatch := { base.dispatch with target := -130000 } }
    [TrainIx.c0, .c1, .c2].map (shareOf s [.c0, .c1, .c2]) = [43334, 43333, 43333] := by decide +kernel

/-- Chapter 06, a charging interval, second 1. -/
theorem test_second_dispatches :
    let s0 := [TrainIx.c0, .c1].foldl
      (fun s x => withTrain x (fun v => { v with state := .running, setpoint := 40000, startClass := .hot }) s)
      (withTrain .c2 (fun v => { v with state := .ready, stateTimer := 500, startClass := .hot }) base)
    let s :=
      { s0 with
        table := { entries := [{ entryA with power := 100000 }, { entryA with id := 2, seq := 2, power := 50000 }]
                   nextId := 3, lastSeq := 2 }
        account := { s0.account with power := ⟨40400, 40400, 20000, 0, 0, 0, 0⟩ } }
    let t := after (.secondEvent ⟨[.dispatchSecond], []⟩) s
    t.dispatch.tSched = -150000 ∧ t.dispatch.commit = [.c0, .c1, .c2]
      ∧ [TrainIx.c0, .c1, .c2].map (fun x => (t.train x).setpoint) = [40400, 40400, 20000]
      ∧ t.dispatch.share.c0 = 60000 ∧ t.dispatch.delKj = -100800 := by decide +kernel

/-- Chapter 06, the close of the charging interval: 989 ‰. -/
theorem test_closing :
    (closingFigures 7 { base.dispatch with schedKj := -135000000, delKj := -133620000 }).fraction = 989 := by decide +kernel

/-- R131: pulses at 898 and at 2 of L_INT 900, and between. -/
theorem test_syncPulse :
    let s := fun k => { base with limits := { base.limits with syncMode := .pulse }, clock := { base.clock with s := k } }
    (after (.syncPulse ⟨[], []⟩) (s 898)).clock.n = 5001 ∧ (after (.syncPulse ⟨[], []⟩) (s 2)).clock.s = 0
      ∧ (after (.syncPulse ⟨[], []⟩) (s 400)).clock.lastCapture = some (400, .slip) := by decide +kernel

/-- R1: a held reset releases PERMIT and takes nothing; the end of it leaves the records of power-on reset. -/
theorem test_held_reset :
    let held := after (.powerOnReset ⟨⟨false, true⟩, (PerTrain.ofFn fun _ => true)⟩) plant
    after (.readAccount (p 0)) held = held ∧ after (.orderByte 0xC3 false) held = held ∧ attn held = false
      ∧ transactionOut held [0x02, 0] = []
      ∧ after (.powerOnReset ⟨⟨false, false⟩, (PerTrain.ofFn fun _ => false)⟩) held = State.reset := by decide +kernel

/-- Every response to a boundary but the table's. -/
def lateBoundary : Instr := .boundary ⟨[.tableBoundary], (boundaryParts.filter (· ≠ .tableBoundary))⟩

/-- R69, R90: the walk of the old interval completes after the table's response to the boundary and before the engine's. Its rows are
those of the new interval's table with the old mass; the response put off then makes its basis change. -/
theorem test_walk_completes_within_boundary :
    let moved := after lateBoundary walking
    let done := after .fullWalkComplete moved
    let t := match step done with
      | .next t => t
      | _ => done
    moved.clock.n = 5001 ∧ moved.proj.state = .stale ∧ done.proj.state = .valid ∧ done.proj.baseInterval = 5000
      ∧ (moved.due.map Due.part).head? = some .accountClose ∧ t.proj.state = .stale := by decide +kernel

/-- R90: the close taken first, the walk that runs before the engine takes the boundary has the old interval and the new mass; the
boundary taken first, the new interval and the old mass. R79: a trip before both has its walk on the clock's number. -/
theorem test_walk_between_basis_changes :
    let s := { plant with account := { plant.account with eC := 108000000, pMeas := 6968 } }
    let walk := fun later => (after (.boundary ⟨[], [later]⟩) s).proj.walk.map fun w => (w.base, w.mass)
    walk .projectionBoundary = some (5000, 30240000) ∧ walk .accountClose = some (5001, 30000000)
      ∧ ((after (.tripAssertion .c1) (after (.boundary ⟨[], boundaryParts⟩) s)).proj.walk.map fun w => (w.base, w.mass))
        = some (5001, 30000000) := by decide +kernel

/-- The patterns of chapter 07's day of orders. -/
def dayPatterns : Vector Pattern 8 :=
  ((Vector.replicate 8 Pattern.blank).set 0
    { Pattern.blank with enabled := true, codeA := 0x11, maskA := 0xFF, hold := 600, confirm := true }).set 1
    { Pattern.blank with enabled := true, codeA := 0x12, maskA := 0xFF, action := .activateDown, releaseMode := .onOther }

/-- A valid telegram. -/
def telegram (a level : Byte) : List Instr :=
  [0xC3, a, 0, level, a ^^^ level].map fun b => .orderByte b false

/-- Chapter 07, steps 1 to 4. -/
theorem test_orders_day :
    let s0 : State :=
      { base with
        orders := { base.orders with patterns := dayPatterns }
        table :=
          { base.table with
            entries := [{ entryU with power := 50000 }, { entryU with id := 5, seq := 5, kind := .reserveDown, power := 40000 }] } }
    let s1 := runs (telegram 0x11 60) s0
    let s2 := runs (telegram 0x11 50) s1
    let s3 := runs (telegram 0x12 40) s2
    let s4 := runs (telegram 0x55 0) s3
    (s1.orders.up.state, s1.orders.up.confirmLeft) = (.confirming, 10)
      ∧ (s2.orders.up.state, s2.orders.up.holdLeft, requestedKw s2 .up) = (.active, 600, 25000)
      ∧ (s3.orders.up.lastRelease, s3.orders.down.state, requestedKw s3 .down) = (.opposite, .active, 16000)
      ∧ (s4.orders.down.lastRelease, s4.orders.unmatched) = (.other, 1) := by decide +kernel

/-- Chapter 07, sharing activated energy. -/
theorem test_energyShares :
    energyShares 4879 [{ entryU with id := 50, seq := 50, power := 30000 }, { entryU with id := 52, seq := 52 }]
      = [(50, 2928), (52, 1951)] := by decide +kernel

/-- Chapter 08, two failures and a recovery: steps 3, 5 and 6. -/
theorem test_keepalive_early :
    let t := after (.keepalive (p 0)) plant
    (t.mode, t.supervision.failures, t.supervision.remaining) = (.hold, 1, 10) := by decide +kernel
theorem test_supervisionExpiry_safe :
    let s := { plant with mode := .hold, supervision := { plant.supervision with failures := 1, remaining := 1 } }
    let t := after .supervisionExpiry s
    (t.mode, t.supervision.failures, t.supervision.remaining, t.port.mask) = (.safe, 2, 0, 0x3810)
      ∧ (t.train .c0).state = .stopping ∧ t.orders.up.lastRelease = .safe := by decide +kernel

/-- R172: CAP_HS of HS0 (index 37) below the store's content cuts the content. -/
theorem test_paramWrite_capHs :
    let s := comm.setStore .hs0 ⟨false, 500000000, []⟩
    let t := after (.paramWrite (p 5) 37 400000) s
    t.limits.capHs.hs0 = 400000 ∧ (t.store .hs0).contentKj = 400000000 := by decide +kernel

/-- Chapter 09, paging with reload, steps 1, 2 and 4. -/
theorem test_paging :
    let s1 := after (.readProjection (p 4) 1 16 1 0) plant
    let s2 := after (.readNext (p 0)) s1
    let s4 := after (.readNext (p 0)) s2
    s1.port.reply.take 8 = [0x0B, 0x29, 0x00, 0x02, 0x00, 0x00, 0x00, 0x00]
      ∧ (s2.port.cursor.currentRow, s2.port.cursor.countLeft) = (9, 8)
      ∧ (s4.port.cursor.currentRow, s4.port.cursor.countLeft) = (1, 16) := by decide +kernel

/-! ### Witnesses: each meets a statement's hypotheses, clause by clause -/

/-- What InGoodOrder asks, as a check. -/
def inOrder (i : Instr) (s : State) : Bool :=
  !inReset s && (!busy s && match i.request? with
    | none => false
    | some (r, h) => permitted r h.client && r.lengthOk h.len)

/-- No power-on reset is held and no response is due. -/
def free (s : State) : Bool := !inReset s && s.due.isEmpty

theorem good {i : Instr} {s : State} (h : inOrder i s = true) : InGoodOrder i s := by
  unfold inOrder at h; unfold InGoodOrder
  cases hr : i.request? with
  | none => simp [hr] at h
  | some x => simp [hr] at h; exact ⟨h.1, h.2.1, x.1, x.2, rfl, h.2.2⟩

/-- With no response due, with some due, and with all put off. -/
theorem witness_StepIdlesOnEmptyQueue :
    plant.pending = [] ∧ plant.due = [] ∧ inReset plant = false ∧ plant.clock.running = true ∧ plant.clock.s + 1 < plant.limits.lInt
      ∧ (after lateBoundary plant).pending = [] ∧ inReset (after lateBoundary plant) = false
      ∧ (after lateBoundary plant).due
        = .boundary ⟨5000, 5001, false⟩ .accountClose :: (after lateBoundary plant).due.tail := by decide +kernel

theorem witness_RequestFrameRoundTrip :
    (Instr.storeSet (p 5) 2 90000).wellFormed = true
      ∧ encodeFrame (.storeSet (p 5) 2 90000) = some [0x07, 0x01, 0x19, 0x02, 0x00, 0x01, 0x5F, 0x90, 0xC7] := by
  decide +kernel

/-- The first byte and the last byte changed. -/
theorem witness_OneWrongByteIsBadFrame :
    (Instr.identify (p 0)).wellFormed = true ∧ encodeFrame (.identify (p 0)) = some [0x02, 0x01, 0x01, 0xC4]
      ∧ [0x02#8, 0x01, 0x01, 0xC4].getD 0 0 ≠ 0x03 ∧ [0x02#8, 0x01, 0x01, 0xC4].getD 3 0 ≠ 0xC5
      ∧ decodeFrame [0x03, 0x01, 0x01, 0xC4] = .frameFailingChecks .length
      ∧ decodeFrame [0x02, 0x01, 0x01, 0xC5] = .frameFailingChecks .crc := by decide +kernel

/-- A frame while BUSY; a code that names no request, the trading client's REBASE, and an IDENTIFY with a byte of payload. -/
theorem witness_FrameRefusedBeforeItsOwner :
    let s := trying (.waiting candidate) .admitEntry plant
    isFrame .frameWrittenWhileBusy = true ∧ isFrame (.identify (p 0)) = true ∧ busy s = true ∧ inReset s = false
      ∧ inReset plant = false ∧ busy plant = false ∧ Request.ofCode 0x7F = none
      ∧ (Instr.rebase (q 0)).request? = some (.rebase, q 0) ∧ permitted .rebase .trading = false
      ∧ (Instr.identify (p 1)).request? = some (.identify, p 1) ∧ permitted .identify .plant = true
      ∧ Request.identify.lengthOk 1 = false := by decide +kernel

theorem witness_NoticeRequestsAnswer :
    InGoodOrder (.notices (q 2) 0xFFFF) plant ∧ InGoodOrder (.noticeMaskSet (p 2) 0xFFFF) plant
      ∧ InGoodOrder (.noticeMaskClear (p 2) 0xFFFF) { plant with mode := .safe } :=
  ⟨good (by decide +kernel), good (by decide +kernel), good (by decide +kernel)⟩

/-- With HEAT_REJECT pending and masked in: ATTN is asserted. C0 RUNNING is permitted, C1 IDLE is not. -/
theorem witness_AttnFollowsPendingAndMask :
    let s0 := plant.setSummary { plant.heat.summary with reject := true }
    let s := s0.withPort { s0.port with mask := 0x4000 }
    s.port.latched &&& 0xF000#16 = 0 ∧ attn s = true ∧ attn plant = false ∧ inReset plant = false
      ∧ (plant.train .c0).state = .running ∧ permit plant .c1 = false := by decide +kernel

/-- While nRST is asserted. -/
theorem witness_PowerOnResetPutsEveryRecord : (plant.withPor ⟨false, true⟩).por.nrst = true := by decide +kernel

theorem witness_RestartLeavesWhatItNames : InGoodOrder (.restart (p 0)) plant := good (by decide +kernel)

/-- Row 191 is the last; 192 and a run past the table are out of range; a reset part has no rows; the cursor is spent, then full. -/
theorem witness_ProjectionPagesFollowCursor :
    (InGoodOrder (.readProjection (p 4) 191 1 1 1) plant ∧ InGoodOrder (.readProjection (p 4) 191 2 0 0) plant
      ∧ InGoodOrder (.readProjection (p 4) 0 192 0 0) State.reset ∧ InGoodOrder (.readNext (p 0)) plant)
      ∧ plant.proj.state ≠ .unavailable ∧ State.reset.proj.state = .unavailable ∧ plant.port.cursor.countLeft = 0
      ∧ (after (.readProjection (q 4) 191 1 1 1) plant).port.cursor.countLeft = 1 :=
  ⟨⟨good (by decide +kernel), good (by decide +kernel), good (by decide +kernel), good (by decide +kernel)⟩, by decide +kernel⟩

/-- Of an UNBASED and of a BASED account, and with a side that becomes ACTIVE over a RUNNING train. -/
theorem witness_PostReadingTakesReading :
    let r : ReadingArgs := ⟨7400, 3180, ⟨0, 0, 0, 0, 0, 0, 0⟩⟩
    InGoodOrder (.postReading (p 34) r) State.reset ∧ InGoodOrder (.postReading (p 34) r) plant
      ∧ State.reset.account.basis = .unbased ∧ plant.account.basis = .based
      ∧ highSide plant.limits 7400 plant.account.excHi = .active ∧ excursionOf plant.account .charge ≠ .active
      ∧ (plant.train .c0).state.stoppable = true ∧ State.reset.proj.state = .unavailable
      ∧ State.reset.clock.running = false :=
  ⟨good (by decide +kernel), good (by decide +kernel), by decide +kernel⟩

/-- Of a side that becomes CLEAR, with the READING source selected. -/
theorem witness_PostReadingTakesReading_clear :
    let s0 := plant.withLimits { plant.limits with excRecovery := .resume }
    let s1 := s0.withSupervision { plant.supervision with reading := true, window := false }
    let s := s1.withAccount { plant.account with excHi := .active }
    InGoodOrder (.postReading (p 34) ⟨5600, 3180, ⟨0, 0, 0, 0, 0, 0, 0⟩⟩) s ∧ highSide s.limits 5600 s.account.excHi = .clear
      ∧ excursionOf s.account .charge ≠ .clear ∧ s.supervision.reading = true ∧ s.supervision.window = false :=
  ⟨good (by decide +kernel), by decide +kernel⟩

/-- With a timer that runs, one at its last second to HOLD and to SAFE, and one that does not, on the last but one second of an
interval; the SAFE one stops C0. -/
theorem witness_SecondCountsAndMeters :
    let s := { plant with clock := { plant.clock with s := 898 } }
    let last := fun m => { plant with mode := m, supervision := { plant.supervision with remaining := 1 } }
    (free s = true ∧ s.clock.s + 1 < s.limits.lInt
      ∧ 0 < plant.supervision.timeout ∧ plant.mode = .normal ∧ 1 < plant.supervision.remaining)
      ∧ (free (last .hold) = true ∧ (last .hold).supervision.remaining = 1 ∧ plant.supervision.escalation = .second
        ∧ (after (.secondEvent ⟨[], []⟩) (last .normal)).mode = .hold
        ∧ (after (.secondEvent ⟨[], []⟩) (last .hold)).mode = .safe
        ∧ ((after (.secondEvent ⟨[], []⟩) (last .hold)).train .c0).state = .stopping)
      ∧ free comm = true ∧ comm.mode = .commissioning ∧ plant.orders.up.state = .active
      ∧ ¬ (plant.orders.up.state = .active ∧ plant.orders.down.state = .active) ∧ plant.orders.up.level ≤ 100
      ∧ plant.orders.down.level ≤ 100 ∧ free plant = true := by decide +kernel

/-- Each reader with an index that names a record and with the first that names none. -/
theorem witness_ReadersAnswerAndChangeNothing :
    (InGoodOrder (.readAccount (p 0)) plant ∧ InGoodOrder (.readStore (p 1) 2) plant ∧ InGoodOrder (.readStore (p 1) 3) plant
      ∧ InGoodOrder (.queryEntry (q 2) 3) plant ∧ InGoodOrder (.queryEntry (q 2) 4) plant
      ∧ InGoodOrder (.projectionState (q 0)) plant ∧ InGoodOrder (.readTrain (p 1) 6) plant
      ∧ InGoodOrder (.readTrain (p 1) 7) plant ∧ InGoodOrder (.patternRead (p 1) 7) plant
      ∧ InGoodOrder (.patternRead (p 1) 8) plant ∧ InGoodOrder (.orderState (p 0)) plant
      ∧ InGoodOrder (.clockRead (q 0)) plant ∧ InGoodOrder (.paramRead (p 1) 111) plant
      ∧ InGoodOrder (.paramRead (p 1) 112) plant)
      ∧ storeOf 2 = some .hs2 ∧ findEntry plant 3 = some entryC ∧ (∀ e ∈ plant.table.entries, e.id ≠ (4#16).toNat)
      ∧ trainOf 6 = some .e2 ∧ patternOf 7 = some 7 ∧ Param.ofIndex 111 = some .syncMode := by
  refine ⟨⟨?_, ?_, ?_, ?_, ?_, ?_, ?_, ?_, ?_, ?_, ?_, ?_, ?_, ?_⟩, by decide +kernel⟩ <;> exact good (by decide +kernel)

/-- REBASE while STALE and not; a side of 3, a stale reading, an ACTIVE side, and BOTH with one side HELD. -/
theorem witness_RebaseAndExcursionClear :
    let s := fun e => { plant with account := { plant.account with excHi := e } }
    (InGoodOrder (.rebase (p 0)) State.reset ∧ InGoodOrder (.rebase (p 0)) plant
      ∧ InGoodOrder (.excursionClear (p 1) 3) plant ∧ InGoodOrder (.excursionClear (p 1) 2) State.reset
      ∧ InGoodOrder (.excursionClear (p 1) 0) (s .active) ∧ InGoodOrder (.excursionClear (p 1) 2) (s .held))
      ∧ State.reset.account.stale = true ∧ (s .active).account.stale = false ∧ (s .active).account.excHi = .active
      ∧ (s .held).account.excHi = .held ∧ (s .held).account.excLo = .clear ∧ plant.account.stale = false :=
  ⟨⟨good (by decide +kernel), good (by decide +kernel), good (by decide +kernel), good (by decide +kernel), good (by decide +kernel), good (by decide +kernel)⟩, by decide +kernel⟩

/-- At both ends of the temperature, with the mass unsaturated at one and saturated at the other. -/
theorem witness_PressureRoundTripLosesAtMostOne :
    let l := { Limits.default with vCav := 2000000 }
    Param.zPm.inRange l.zPm = true ∧ Param.vCav.inRange l.vCav = true ∧ massFromPressure l 3000 3500 < 100000000
      ∧ massFromPressure l 20000 2500 = 100000000 := by decide +kernel

/-- OUT of an AVAILABLE store (HS0), OUT of an ISOLATED one and RETURN of it (HS1), and STORE_SET at, above and out of its mode. -/
theorem witness_StoreRequestsAnswer :
    (InGoodOrder (.storeService (p 2) 3 0) plant ∧ InGoodOrder (.storeService (p 2) 0 0) plant
      ∧ InGoodOrder (.storeService (p 2) 1 0) plant ∧ InGoodOrder (.storeService (p 2) 0 1) plant
      ∧ InGoodOrder (.storeService (p 2) 1 1) plant ∧ InGoodOrder (.storeSet (p 5) 3 0) comm
      ∧ InGoodOrder (.storeSet (p 5) 2 1800001) comm ∧ InGoodOrder (.storeSet (p 5) 2 1800000) plant
      ∧ InGoodOrder (.storeSet (p 5) 2 1800000) comm)
      ∧ (plant.store .hs0).state = .available ∧ (plant.store .hs1).state = .isolated ∧ (plant.store .hs1).trains = []
      ∧ comm.limits.capHs.get .hs2 = 1800000 ∧ comm.mode = .commissioning ∧ plant.mode ≠ .commissioning := by
  refine ⟨⟨?_, ?_, ?_, ?_, ?_, ?_, ?_, ?_, ?_⟩, by decide +kernel⟩ <;> exact good (by decide +kernel)

theorem witness_HeatIsConservedWithoutRejection :
    (free plant = true ∧ ContentLaw plant ∧ StoreSeparation plant) ∧ plant.clock.s + 1 < plant.limits.lInt
      ∧ (∀ i, drawsFrom plant i ≤ (plant.store i).contentKj)
      ∧ (after (.secondEvent ⟨[.storesSecond], []⟩) plant).heat.summary.reject = false :=
  ⟨⟨by decide +kernel, fun i => by cases i <;> decide +kernel, fun i => by cases i <;> decide +kernel⟩, by decide +kernel,
    fun i => by cases i <;> decide +kernel, by decide +kernel⟩

/-- Chapter 02, running low: HS0 falls below LOW_MARK, and E0 moves to the store with the most content above it. -/
theorem witness_StoresRespondToSecond :
    let run := fun v : Train => { v with state := .running, setpoint := 100000 }
    let s :=
      { withTrain .e0 run base with
        account := { base.account with power := ⟨0, 0, 0, 0, 100000, 0, 0⟩ }
        heat := { base.heat with store := ⟨⟨false, 90000000, [.e0]⟩, ⟨false, 90000000, []⟩, ⟨false, 100000000, []⟩⟩ } }
    let t := after (.secondEvent ⟨[], othersThan .storesSecond⟩) s
    inReset s = false ∧ s.due = [] ∧ (t.store .hs0, t.store .hs2) = (⟨false, 89928000, []⟩, ⟨false, 100000000, [.e0]⟩) := by
  decide +kernel

/-- An ADMIT whose first interval is one before the gate and one at it, one in HOLD, one at a full table, and one that is taken; and a
last interval of 4,294,967,295 and one past it. -/
theorem witness_AdmitIsJudgedInOrder :
    let a := fun first : Word => (⟨0, first, 1, 10000, 5, 0⟩ : AdmitArgs)
    let full := plant.setEntries (List.replicate 128 entryA)
    let last := plant.withClock { plant.clock with n := 4294967200 }
    (InGoodOrder (.admitEntry (q 16) (a 5001)) plant ∧ InGoodOrder (.admitEntry (q 16) (a 5002)) { plant with mode := .hold }
      ∧ InGoodOrder (.admitEntry (q 16) (a 5002)) full ∧ InGoodOrder (.admitEntry (q 16) (a 5002)) plant)
      ∧ (AdmitInRange last ⟨0, 4294967295, 1, 10000, 5, 0⟩ ∧ ¬ AdmitInRange last ⟨0, 4294967295, 2, 10000, 5, 0⟩)
      ∧ ¬ AdmitInRange plant (a 5001) ∧ AdmitInRange plant (a 5002) ∧ AdmitInRange plant (a 5191)
      ∧ ¬ AdmitInRange plant (a 5192) ∧ AdmitInRange full (a 5002) ∧ 128 ≤ full.table.entries.length ∧ full.mode = .normal
      ∧ plant.table.entries.length < 128 ∧ AdmitInRange { plant with mode := .hold } (a 5002) :=
  ⟨⟨good (by decide +kernel), good (by decide +kernel), good (by decide +kernel), good (by decide +kernel)⟩, by decide +kernel,
    by decide +kernel⟩

/-- A trial refused by its first row (no compressor in service), one past its gate, and one that stores the entry. -/
theorem witness_TrialWalkSettlesAdmit :
    let w := walkInputs plant
    let idle := { w with trains := PerTrain.ofFn fun _ => ⟨.outOfService, .cold, 1⟩ }
    let s := fun (v : WalkInputs) (n : Nat) =>
      trying (.running candidate [candidate.entry]) .admitEntry
        { plant with proj := { plant.proj with walkBasis := some v }, clock := { plant.clock with n := n } }
    inReset (s w 5000) = false ∧ (s w 5000).proj.trial = .running candidate [candidate.entry] ∧ (s w 5000).proj.walkBasis = some w
      ∧ (s idle 5000).proj.walkBasis = some idle ∧ (s w 5000).port.inFlight = some .admitEntry
      ∧ trialJudgement idle (s idle 5000).proj.rows candidate [candidate.entry] = some ⟨.capability, 5002⟩
      ∧ trialJudgement w (s w 5000).proj.rows candidate [candidate.entry] = none
      ∧ PastGate (s w 5001) candidate.entry ∧ ¬ PastGate (s w 5000) candidate.entry
      ∧ (s w 5000).table.lastSeq < 4294967295 := by decide +kernel

/-- An AMEND without a field, of no entry, of an ACTIVE one, past its gate, larger in HOLD, of power, of nothing and of price. -/
theorem witness_AmendIsJudgedInOrder :
    let a := fun (id : Half) (fields : Byte) (kw : Word) => (⟨id, fields, kw, 4300, 9⟩ : AmendArgs)
    let late := { plant with clock := { plant.clock with n := 5002 } }
    (InGoodOrder (.amend (q 13) (a 3 0 1)) plant ∧ InGoodOrder (.amend (q 13) (a 9 1 1)) plant
      ∧ InGoodOrder (.amend (q 13) (a 1 1 1)) plant ∧ InGoodOrder (.amend (q 13) (a 3 1 1)) late
      ∧ InGoodOrder (.amend (p 13) (a 3 1 40000)) { plant with mode := .hold }
      ∧ InGoodOrder (.amend (p 13) (a 3 1 40000)) plant ∧ InGoodOrder (.amend (p 13) (a 3 1 30000)) plant
      ∧ InGoodOrder (.amend (p 13) (a 3 2 0)) plant)
      ∧ ¬ AmendInRange (a 3 0 1) ∧ AmendInRange (a 9 1 1) ∧ findEntry plant 9 = none ∧ findEntry plant 1 = some entryA
      ∧ entryA.status.isOpen = false ∧ findEntry plant 3 = some entryC ∧ entryC.status.isOpen = true
      ∧ PastGate late entryC ∧ ¬ PastGate plant entryC ∧ entryC.power < amendPower (a 3 1 40000) entryC
      ∧ AmendInRange (a 3 1 30000) ∧ amendPower (a 3 1 30000) entryC = entryC.power ∧ AmendInRange (a 3 2 0)
      ∧ amendPower (a 3 2 0) entryC = entryC.power ∧ amendPrice (a 3 2 0) entryC ≠ entryC.price := by
  refine ⟨⟨?_, ?_, ?_, ?_, ?_, ?_, ?_, ?_⟩, by decide +kernel⟩ <;> exact good (by decide +kernel)

/-- A trial refused, one whose entry is ACTIVE by now, one past its gate, and one carried out. -/
theorem witness_TrialWalkSettlesAmend :
    let c : Candidate := ⟨{ entryC with power := 40000 }, true⟩
    let w := walkInputs plant
    let idle := { w with trains := PerTrain.ofFn fun _ => ⟨.outOfService, .cold, 1⟩ }
    let s := fun (v : WalkInputs) (n id : Nat) =>
      trying (.running c [c.entry]) (.amend .trading id 40000 none none)
        { plant with proj := { plant.proj with walkBasis := some v }, clock := { plant.clock with n := n } }
    inReset (s w 5000 3) = false ∧ (s w 5000 3).proj.trial = .running c [c.entry] ∧ (s w 5000 3).proj.walkBasis = some w
      ∧ (s idle 5000 3).proj.walkBasis = some idle
      ∧ (s w 5000 3).port.inFlight = some (.amend .trading 3 40000 none none)
      ∧ (trialJudgement idle (s idle 5000 3).proj.rows c [c.entry]).isSome = true
      ∧ trialJudgement w (s w 5000 3).proj.rows c [c.entry] = none ∧ findEntry (s w 5000 3) 3 = some entryC
      ∧ entryC.status.isOpen = true ∧ ¬ PastGate (s w 5000 3) entryC ∧ PastGate (s w 5002 3) entryC
      ∧ findEntry (s w 5000 1) 1 = some entryA ∧ entryA.status.isOpen = false := by decide +kernel

/-- WITHDRAW of no entry, of an ACTIVE one by each client, of an open one before and past its gate. -/
theorem witness_WithdrawAndSettle_withdraw :
    let late := { plant with clock := { plant.clock with n := 5002 } }
    (InGoodOrder (.withdraw (q 2) 9) plant ∧ InGoodOrder (.withdraw (q 2) 1) plant ∧ InGoodOrder (.withdraw (q 2) 3) late
      ∧ InGoodOrder (.withdraw (q 2) 3) plant ∧ InGoodOrder (.withdraw (p 2) 1) plant)
      ∧ findEntry plant 9 = none ∧ findEntry plant 1 = some entryA ∧ entryA.status = .active
      ∧ findEntry late 3 = some entryC ∧ entryC.status.isOpen = true ∧ PastGate late entryC ∧ ¬ PastGate plant entryC :=
  ⟨⟨good (by decide +kernel), good (by decide +kernel), good (by decide +kernel), good (by decide +kernel),
    good (by decide +kernel)⟩, by decide +kernel⟩

/-- SETTLE of no entry, of an open one and of a closed one. -/
theorem witness_WithdrawAndSettle :
    let b := { entryA with status := .delivered }
    let s := plant.setEntries [b, entryC]
    (InGoodOrder (.settle (q 2) 9) s ∧ InGoodOrder (.settle (q 2) 3) s ∧ InGoodOrder (.settle (q 2) 1) s)
      ∧ findEntry s 9 = none ∧ findEntry s 3 = some entryC ∧ entryC.status.isClosed = false ∧ findEntry s 1 = some b
      ∧ b.status.isClosed = true :=
  ⟨⟨good (by decide +kernel), good (by decide +kernel), good (by decide +kernel)⟩, by decide +kernel⟩

theorem witness_FindReturnsPagesInOrder :
    InGoodOrder (.findInterval (q 12) 5000 0 0) plant ∧ InGoodOrder (.findReference (q 10) 7 4999 1) plant :=
  ⟨good (by decide +kernel), good (by decide +kernel)⟩

/-- With next_id held by a record at the top of the ids: the search wraps to 1 and on to 2. -/
theorem witness_NextIdIsFree :
    let s := plant.withTable
      { entries := [{ entryA with id := 65535 }, { entryU with id := 1 }], nextId := 65535, lastSeq := 3 }
    TableLaw s ∧ takeId s = 2 ∧ TableLaw plant ∧ (∀ e ∈ plant.table.entries, e.id ≠ plant.table.nextId) := by
  unfold TableLaw; decide +kernel

/-- With a WAITING trial and without one. -/
theorem witness_FullWalkWritesRecord :
    let s := trying (.waiting candidate) .admitEntry walking
    (free walking = true ∧ walking.proj.walk.isSome = true) ∧ (∀ c, walking.proj.trial ≠ .waiting c)
      ∧ s.proj.walk.isSome = true ∧ s.proj.trial = .waiting candidate :=
  ⟨by decide +kernel, fun _ h => (nomatch h), by decide +kernel, by decide +kernel⟩

/-- The walk of `walking` took its records; entry 3 is ADMITTED and covers a row. -/
theorem walking_holds_table : WalkHoldsTable walking := by
  intro w hw e he ho
  obtain rfl : walkInputs plant = w := Option.some.inj hw
  have hc : e ∈ (walkInputs plant).entries :=
    List.mem_filter.mpr ⟨he, by cases h : e.status <;> simp_all [EntryStatus.isOpen, EntryStatus.isClosed]⟩
  exact ⟨e, hc, rfl, rfl, rfl, rfl, ho⟩

theorem witness_FullWalkPromiseHolds :
    free walking = true ∧ walking.proj.walk.isSome = true ∧ WalkHoldsTable walking ∧ ∃ t, exec .fullWalkComplete walking = .next t :=
  ⟨by decide +kernel, by decide +kernel, walking_holds_table, _, rfl⟩

/-- R92: the candidate's last interval at row 191. -/
theorem witness_WalkRowsFollowTheRules :
    let w := walkInputs plant
    let c : Candidate := ⟨{ candidate.entry with first := 5191 }, false⟩
    plant.proj.rows.length = 192 ∧ c.entry.first ≤ w.base + 191
      ∧ trialJudgement { w with trains := PerTrain.ofFn fun _ => ⟨.outOfService, .cold, 1⟩ } plant.proj.rows c [c.entry]
        = some ⟨.capability, 5191⟩ := by decide +kernel

/-- UNAVAILABLE with the account UNBASED and BASED; no trial in hand; below the fifth restart and at it, for a trip (4) and a
boundary (2 and 3). -/
theorem witness_BasisChangeCountsAgainstTrial :
    let s := trying (.waiting candidate) .admitEntry walking
    let s4 := { s with proj := { s.proj with restarts := 4 } }
    let b := fun k => { s with proj := { s.proj with restarts := k } }
    let u := { base with proj := State.reset.proj }
    (State.reset.proj.state = .unavailable ∧ State.reset.account.basis = .unbased ∧ u.proj.state = .unavailable
      ∧ u.account.basis = .based ∧ u.clock.running = true ∧ base.proj.state ≠ .unavailable ∧ base.proj.trial = .none)
      ∧ (s.account.basis = .based ∧ s.clock.running = true ∧ (b 2).proj.restarts < 3 ∧ 3 ≤ (b 3).proj.restarts
        ∧ (b 2).proj.trial.candidate? = some candidate ∧ (b 3).port.inFlight = some .admitEntry) ∧
    free s = true ∧ (s.train .c0).tripLine = false ∧ (s.train .c0).state = .running ∧ s.proj.state ≠ .unavailable
      ∧ s.proj.trial.candidate? = some candidate ∧ s.port.inFlight = some .admitEntry ∧ s.proj.restarts < 4
      ∧ 4 ≤ s4.proj.restarts ∧ s4.proj.trial.candidate? = some candidate := by decide +kernel

/-- Each state at its last count; and, R101 in its order, the second that takes E0 from READY to STOPPING leaves down_since 1. -/
theorem witness_TrainTimersExpire :
    let s := fun st => withTrain .e0 (fun v => { v with state := st, stateTimer := 1, heater := .on }) base
    (∀ st, ((s st).train .e0).stateTimer = 1) ∧ ((s .starting).train .e0).state = .starting
      ∧ ((s .ready).train .e0).state = .ready ∧ ((s .stopping).train .e0).state = .stopping
      ∧ ((s .cooldown).train .e0).state = .cooldown ∧ free (s .cooldown) = true
      ∧ (let t := after (.secondEvent ⟨[], (othersThan .trainsSecond)⟩) (s .ready)
        ((t.train .e0).state, (t.train .e0).downSince) = (.stopping, 1)) :=
  ⟨fun st => rfl, by decide +kernel⟩

theorem witness_ClassCycleAndAgeExpiries :
    let s0 := withTrain .c0 (fun v => { v with startClass := .hot, downSince := 28800 }) base
    let s :=
      { s0 with
        account := { s0.account with readingAge := 9 }
        trains := { s0.trains with timerA := ⟨600, 60, 599⟩, timerB := ⟨10, 10, 9⟩ } }
    free s = true ∧ s.account.stale = false ∧ s.account.readingSeen = true ∧ s.limits.readStale = s.account.readingAge + 1
      ∧ (s.train .c0).state = .idle ∧ (s.train .c0).startClass = .hot ∧ (s.train .c0).downSince = s.limits.hotWindow
      ∧ s.limits.hotWindow ≤ 86400 ∧ s.trains.timerA.phase + 1 = s.trains.timerA.period
      ∧ s.trains.timerB.phase + 1 = s.trains.timerB.period := by decide +kernel

theorem witness_TripStopsTrain :
    let out := withTrain .e1 (fun v => { v with state := .outOfService }) plant
    let up := withTrain .e1 (fun v => { v with tripLine := true }) plant
    free plant = true ∧ (plant.train .c0).tripLine = false ∧ (plant.train .c0).state = .running ∧ (out.train .e1).tripLine = false
      ∧ (out.train .e1).state = .outOfService ∧ (up.train .e1).tripLine = true := by decide +kernel

/-- Each request refused for its argument, refused for the state, and taken. -/
theorem witness_TrainStateRequests :
    let tripped := withTrain .e2 (fun v => { v with state := .tripped }) plant
    let locked := withTrain .e2 (fun v => { v with state := .lockedOut }) plant
    let out := withTrain .e2 (fun v => { v with state := .outOfService }) plant
    (InGoodOrder (.trainReset (p 1) 7) plant ∧ InGoodOrder (.trainReset (p 1) 6) plant
      ∧ InGoodOrder (.trainReset (p 1) 6) tripped ∧ InGoodOrder (.trainUnlock (p 1) 7) plant
      ∧ InGoodOrder (.trainUnlock (p 1) 6) plant ∧ InGoodOrder (.trainUnlock (p 1) 6) locked
      ∧ InGoodOrder (.trainService (p 2) 6 2) plant ∧ InGoodOrder (.trainService (p 2) 0 0) plant
      ∧ InGoodOrder (.trainService (p 2) 6 1) plant ∧ InGoodOrder (.trainService (p 2) 6 0) plant
      ∧ InGoodOrder (.trainService (p 2) 6 1) out)
      ∧ trainOf 6 = some .e2 ∧ trainOf 0 = some .c0 ∧ (plant.train .e2).state = .idle
      ∧ (plant.train .c0).state = .running ∧ (tripped.train .e2).state = .tripped
      ∧ (tripped.train .e2).tripLine = false ∧ (locked.train .e2).state = .lockedOut
      ∧ (out.train .e2).state = .outOfService := by
  refine ⟨⟨?_, ?_, ?_, ?_, ?_, ?_, ?_, ?_, ?_, ?_, ?_⟩, by decide +kernel⟩ <;> exact good (by decide +kernel)

/-- A list that is the side's trains and one that is not; a compressor, an assignment kept and one changed; on_time at and above
the period. -/
theorem witness_TrainSettingRequests :
    (InGoodOrder (.trainPriority (p 4) 1 [6, 4, 5]) plant ∧ InGoodOrder (.trainPriority (p 4) 1 [6, 4, 4]) plant
      ∧ InGoodOrder (.heaterAssign (p 2) 3 1) plant ∧ InGoodOrder (.heaterAssign (p 2) 4 0) plant
      ∧ InGoodOrder (.heaterAssign (p 2) 4 3) plant ∧ InGoodOrder (.heaterTimer (p 5) 0 10 11) plant
      ∧ InGoodOrder (.heaterTimer (p 5) 0 10 10) plant ∧ InGoodOrder (.heaterTimer (p 5) 1 3600 1) plant)
      ∧ sideOfByte 1 = some .discharge ∧ [6#8, 4, 5].map trainOf = [TrainIx.e2, .e0, .e1].map some
      ∧ [TrainIx.e2, .e0, .e1].Perm Side.discharge.trains ∧ ¬ [TrainIx.e2, .e0, .e0].Perm Side.discharge.trains
      ∧ trainOf 4 = some .e0 ∧ heaterOf 3 = some .cycleB ∧ (plant.train .e0).heater = .off := by
  refine ⟨⟨?_, ?_, ?_, ?_, ?_, ?_, ?_, ?_⟩, by decide +kernel⟩ <;> exact good (by decide +kernel)

theorem witness_TrainsStartOnlyInNormal :
    let s := { base with mode := .safe }
    s.mode = .safe ∧ SafeLaw s ∧ (∃ t, exec (.secondEvent ⟨[], []⟩) s = .next t)
      ∧ ∃ t, step (after lateBoundary s) = .next t :=
  ⟨by decide +kernel, fun _ x => by cases x <;> decide +kernel, ⟨_, rfl⟩, _, rfl⟩

/-- dayPos and s at the last values taken and the first refused. -/
theorem witness_ClockSetStartsClock :
    (InGoodOrder (.clockSet (p 8) 0 96 0) comm ∧ InGoodOrder (.clockSet (p 8) 0 0 900) comm
      ∧ InGoodOrder (.clockSet (p 8) 0 95 899) plant ∧ InGoodOrder (.clockSet (p 8) 0 95 899) comm)
      ∧ 86400 / comm.limits.lInt = 96 ∧ comm.limits.lInt = 900 ∧ plant.mode ≠ .commissioning ∧ comm.mode = .commissioning
      ∧ comm.account.basis = .based ∧ comm.due = [] :=
  ⟨⟨good (by decide +kernel), good (by decide +kernel), good (by decide +kernel), good (by decide +kernel)⟩, by decide +kernel⟩

/-- A BASED account that rebases, an UNBASED one, and a day boundary; a second at s = L_INT − 1, the first that ends the interval, and one
that does not at L_INT − 2. -/
theorem witness_BoundaryClosesAccountAndStores :
    let late := fun k => { plant with clock := { plant.clock with s := k } }
    let far := { plant with account := { plant.account with pMeas := 7030 }, clock := { plant.clock with dayPos := 95 } }
    free plant = true ∧ free far = true ∧ plant.clock.running = true ∧ plant.account.basis = .based ∧ far.clock.running = true
      ∧ (after (.boundary ⟨[], []⟩) far).account.lastClose.rebased = true ∧ (after (.boundary ⟨[], []⟩) far).clock.dayPos = 0
      ∧ plant.proj.state ≠ .unavailable ∧ free (late 899) = true ∧ (late 899).limits.lInt ≤ (late 899).clock.s + 1
      ∧ (after (.secondEvent ⟨[], []⟩) (late 899)).clock = { plant.clock with n := 5001, s := 0, dayPos := 4 }
      ∧ (after (.secondEvent ⟨[], []⟩) (late 898)).clock = { plant.clock with s := 899 }
      ∧ (after (.secondEvent ⟨[.tableBoundary, .dispatchSecond], []⟩) (late 899)).dispatch.closing.interval = 5000 := by decide +kernel

/-- An entry that closes, an activation short and unbacked, and a record with its interval closed already. -/
theorem witness_BoundarySettlesTableAndOrders :
    let s :=
      { plant with
        clock := { plant.clock with n := 5001 }
        orders := { plant.orders with up := { plant.orders.up with servedKj := 900, requestedKj := 1000 } } }
    (s.table.entries.map (·.id)).Nodup ∧ s.orders.up.closing.interval ≠ 5001
      ∧ Latched .orderShort (after (.boundary ⟨[], []⟩) s) ∧ ¬ Latched .orderShort s
      ∧ free s = true ∧ s.clock.running = true ∧ s.clock.n < 4294967295 ∧ s.table.entries.any (closesAt 5001) = true
      ∧ stillBacked s .up 5002 = false ∧ s.orders.up.state = .active := by decide +kernel

/-- s at 898, at 2 and at 3, and SYNC_MODE FREE. -/
theorem witness_SyncPulseActsByItsSecond :
    let s := fun k => { base with limits := { base.limits with syncMode := .pulse }, clock := { base.clock with s := k } }
    inReset base = false ∧ inReset (s 0) = false ∧ base.limits.syncMode = .free ∧ (s 0).clock.running = true ∧ (s 0).limits.syncMode = .pulse ∧ 300 ≤ (s 0).limits.lInt
      ∧ (s 0).limits.lInt ≤ (s 898).clock.s + 2 ∧ (s 2).clock.s ≤ 2 ∧ 2 < (s 3).clock.s
      ∧ (s 897).clock.s + 2 < (s 0).limits.lInt := by decide +kernel

theorem witness_SharesSumToTarget :
    let s := { plant with dispatch := { plant.dispatch with target := -130000 } }
    let l := [TrainIx.c0, .c1, .c2]
    l.Nodup ∧ 0 < sumOver (tpMax s) l
      ∧ ∀ x ∈ l, (paramsOf s x).tpMin ≤ quotient s (sumOver (tpMax s) l) x
        ∧ quotient s (sumOver (tpMax s) l) x + 1 ≤ (paramsOf s x).tpMax := by decide +kernel

/-- plant with 170,000 kW of charge: C0 RUNNING, C1 IDLE and C2 READY are members, E0 READY is none. -/
def dispatching : State :=
  [TrainIx.c2, .e0].foldl
    (fun s x => withTrain x (fun v => { v with state := .ready, stateTimer := 9, startClass := .hot }) s)
    (plant.setEntries [{ entryA with power := 170000 }])

/-- plant with 170,000 kW of discharge and a TP_MIN of 0 for E0: E0 RUNNING at 0 kW and E1 READY are members, and C0, RUNNING at kw
since t seconds, is none. -/
def reversing (kw t : Nat) : State :=
  withTrain .e1 (fun v => { v with state := .ready, stateTimer := 9, startClass := .hot })
    (withTrain .e0 (fun v => { v with state := .running, startClass := .hot })
      (withTrain .c0 (fun v => { v with setpoint := kw, runTime := t })
        ((plant.setEntries [{ entryA with kind := .energyDischarge, power := 170000 }]).withLimits
          (plant.limits.set (.train .e0 .tpMin) 0))))

/-- Members and others in each state, with the other side at rest; and with it above TP_MIN, and at TP_MIN before and after MIN_RUN. -/
theorem witness_DispatcherMovesTrains :
    let commit := fun s => (after (.secondEvent ⟨[], (othersThan .dispatchSecond)⟩) s).dispatch.commit
    (free dispatching = true ∧ PlantLaw dispatching ∧ StoreListLaw dispatching)
      ∧ (commit dispatching = [.c0, .c1, .c2] ∧ (dispatching.train .c1).state = .idle
        ∧ (after (.secondEvent ⟨[], (othersThan .dispatchSecond)⟩) dispatching).store .hs2 = ⟨false, 1000000, [.c0, .c2]⟩)
      ∧ PlantLaw (reversing 40000 100)
      ∧ commit (reversing 40000 100) = [.e0, .e1] ∧ commit (reversing 20000 100) = [.e0, .e1]
      ∧ (paramsOf plant .c0).minRun ≤ 1800
      ∧ ((after (.secondEvent ⟨[], (othersThan .dispatchSecond)⟩) (reversing 20000 1800)).train .e1).state = .running :=
  ⟨⟨by decide +kernel, ⟨fun x => by cases x <;> decide +kernel, by unfold OneSideAtPower; decide +kernel, by decide +kernel,
      fun h => absurd h (by decide +kernel), fun _ x => by cases x <;> decide +kernel⟩,
    fun i => by cases i <;> decide +kernel, by decide +kernel, fun i => by cases i <;> decide +kernel⟩, by decide +kernel,
    ⟨fun x => by cases x <;> decide +kernel, by unfold OneSideAtPower; decide +kernel, by decide +kernel,
      fun h => absurd h (by decide +kernel), fun _ x => by cases x <;> decide +kernel⟩, by decide +kernel⟩

/-- Chapter 06, a direction change, step 1: at s = 420 the next row's 80,000 kW start E0, HOT, whose start takes 480 s. -/
theorem test_lookAhead :
    let row := { Row.blank with interval := 5001, netKw := 80000 }
    let s0 := withTrain .e0 (fun v => { v with startClass := .hot }) base
    let s := fun k => { s0 with clock := { base.clock with s := k }, proj := { base.proj with rows := [Row.blank, row] } }
    let t := fun k => after (.secondEvent ⟨[], (othersThan .dispatchSecond)⟩) (s k)
    (t 420).dispatch.need = [.e0] ∧ ((t 420).train .e0).state = .starting ∧ ((t 419).train .e0).state = .idle := by
  decide +kernel

theorem witness_DispatcherLooksAhead :
    free base = true ∧ (∀ x, (base.train x).startsToday < base.limits.startsMax) ∧ base.mode = .normal
      ∧ (base.train .e0).state = .idle ∧ .e0 ∉ (after (.secondEvent ⟨[], (othersThan .dispatchSecond)⟩) base).dispatch.commit :=
  ⟨by decide +kernel, fun x => by cases x <;> decide +kernel, by decide +kernel⟩

theorem witness_ServedEnergyIsSharedWhole :
    let l := [{ entryU with power := 30000 }, { entryU with id := 4, seq := 4 }]
    (l.map (·.seq)).Nodup ∧ 0 < (l.map (·.power)).sum := by decide +kernel

/-- A hunting and a collecting assembler; a good check byte with no match, an activation backed and unbacked, a RELEASE_ALL. -/
theorem witness_OrderBytesMakeTelegrams :
    let s0 := { plant with orders := { plant.orders with up := Activation.blank } }
    let pat := fun a : Action => { Pattern.blank with enabled := true, codeA := 0x11, maskA := 0xFF, action := a }
    let s := fun a : Action =>
      { s0 with
        orders :=
          { s0.orders with
            assembler := .collecting [0xC3, 0x11, 0, 60]
            patterns := (Vector.replicate 8 Pattern.blank).set 0 (pat a) } }
    free s0 = true ∧ s0.orders.assembler = .hunting ∧ (s .activateUp).orders.assembler = .collecting [0xC3#8, 0x11, 0, 60]
      ∧ (0x2D : Byte) = 0x11#8 ^^^ 0 ^^^ 60 ∧ matchPattern s0 0x11 0 = none ∧ activeOn s0 .up .onOther = false
      ∧ activeOn s0 .down .onOther = false ∧ matchPattern (s .activateUp) 0x11 0 = some 0
      ∧ (s .activateUp).orders.up.state = .idle ∧ (s .activateUp).orders.down.state = .idle
      ∧ (patternAt (s .activateUp) 0).action = .activateUp ∧ (s .activateUp).mode ≠ .safe
      ∧ backed (s .activateUp) .up = true ∧ (patternAt (s .activateUp) 0).confirm = false
      ∧ backed (s .activateDown) .down = false ∧ (patternAt (s .activateDown) 0).action = .activateDown
      ∧ (patternAt (s .releaseAll) 0).action = .releaseAll := by decide +kernel

/-- Chapter 07's patterns P0 (confirmed) and P1 (ON_OTHER) on their records: the second match of a pair, a repeat, a takeover, the
release of the opposite record, LEVEL 0 and an ON_PATTERN ending each have a state that meets them. -/
theorem witness_OrderBytesMakeTelegrams_moves :
    let on := { Pattern.blank with enabled := true, codeA := 0x13, maskA := 0xFF, releaseMode := .onPattern, partner := 0 }
    let s := fun (st : ActState) (k : Fin 8) (level : Byte) =>
      { plant with
        orders :=
          { plant.orders with
            assembler := .collecting [0xC3, 0x11, 0, level]
            patterns := dayPatterns.set 2 on
            up := { Activation.blank with state := st, pattern := k, level := 40, confirmLeft := 3 } } }
    matchPattern (s .confirming 0 60) 0x11 0 = some 0
      ∧ ((after (.orderByte 0x2D false) (s .confirming 0 60)).orders.up.state,
          (after (.orderByte 0x2D false) (s .confirming 0 60)).orders.up.confirmLeft) = (.active, 0)
      ∧ (after (.orderByte 0x2D false) (s .active 0 60)).orders.up.level = 60
      ∧ (after (.orderByte 0x11 false) (s .active 0 0)).orders.up.lastRelease = .pattern
      ∧ (after (.orderByte 0x2D false) (s .active 2 60)).orders.up.lastRelease = .pattern
      ∧ (after (.orderByte 0x2D false) (s .active 2 60)).orders.up.state = .confirming
      ∧ (after (.orderByte 0x2D false) (s .active 1 60)).orders.up.lastRelease = .other := by decide +kernel

theorem witness_RecordWindowsExpire :
    let s := { plant with orders :=
      { plant.orders with
        up := { plant.orders.up with holdLeft := 1 }
        down := { Activation.blank with state := .confirming, confirmLeft := 1 } } }
    free s = true ∧ (s.act .down).state = .confirming ∧ (s.act .down).confirmLeft = 1 ∧ (s.act .up).state = .active
      ∧ (patternAt s (s.act .up).pattern).releaseMode = .timed ∧ (s.act .up).holdLeft = 1 := by decide +kernel

/-- A hold of 3,601 s, a pattern in use (0) and one that is not (1); a direction of 3 and of 2. -/
theorem witness_PatternAndReleaseRequests :
    let a := fun (i : Byte) (hold : Half) => (⟨i, 1, 0x11, 0xFF, 0, 0, 0, 0, hold, 0, 0, 30⟩ : PatternArgs)
    (InGoodOrder (.patternWrite (p 13) (a 0 3601)) plant ∧ InGoodOrder (.patternWrite (p 13) (a 0 3600)) plant
      ∧ InGoodOrder (.patternWrite (p 13) (a 1 3600)) plant ∧ InGoodOrder (.orderRelease (p 1) 3) plant
      ∧ InGoodOrder (.orderRelease (p 1) 2) plant)
      ∧ (plant.act .up).state ≠ .idle ∧ (plant.act .up).pattern = 0 ∧ (plant.act .down).state = .idle :=
  ⟨⟨good (by decide +kernel), good (by decide +kernel), good (by decide +kernel), good (by decide +kernel),
    good (by decide +kernel)⟩, by decide +kernel⟩

/-- PARAM_WRITE locked, of index 112, below a range, and taken; LOCK_LIMITS in NORMAL, before basing, with a check that fails, and
taken. -/
theorem witness_LimitsAreWrittenUntilLocked :
    let crossed := { comm with limits := { comm.limits with pMin := 7300 } }
    (InGoodOrder (.paramWrite (p 5) 0 1000) plant ∧ InGoodOrder (.paramWrite (p 5) 112 0) comm
      ∧ InGoodOrder (.paramWrite (p 5) 37 0) comm ∧ InGoodOrder (.paramWrite (p 5) 37 400000) comm
      ∧ InGoodOrder (.lockLimits (p 0)) plant ∧ InGoodOrder (.lockLimits (p 0)) State.reset
      ∧ InGoodOrder (.lockLimits (p 0)) crossed ∧ InGoodOrder (.lockLimits (p 0)) comm)
      ∧ plant.locked = true ∧ comm.locked = false ∧ Param.ofIndex 112 = none ∧ Param.ofIndex 37 = some (.capHs .hs0)
      ∧ (Param.capHs .hs0).inRange 0 = false ∧ (Param.capHs .hs0).inRange 400000 = true
      ∧ State.reset.account.basis = .unbased ∧ State.reset.mode = .commissioning ∧ comm.account.basis = .based
      ∧ comm.clock.running = true ∧ (failedCheck crossed.limits).isSome = true ∧ failedCheck comm.limits = none := by
  refine ⟨⟨?_, ?_, ?_, ?_, ?_, ?_, ?_, ?_⟩, by decide +kernel⟩ <;> exact good (by decide +kernel)

theorem witness_LimitsStandWhenLocked :
    plant.locked = true ∧ LockLaw plant ∧ (∃ t, exec (.paramWrite (p 5) 0 1000) plant = .next t)
      ∧ (after lateBoundary plant).pending = [] ∧ ∃ t, step (after lateBoundary plant) = .next t :=
  ⟨by decide +kernel, by unfold LockLaw; decide +kernel, ⟨_, rfl⟩, by decide +kernel, _, rfl⟩

/-- An expiry to HOLD and one to SAFE, FORCE_EXPIRY in each case, a KEEPALIVE at the window's edge and before it, and
SUPERVISION_SET with a code out of range, with a timeout of 0 s outside COMMISSIONING, and taken. -/
theorem witness_SupervisionRequests :
    let s := fun m k => { plant with mode := m, supervision := { plant.supervision with remaining := k } }
    let off := { plant with supervision := { plant.supervision with timeout := 0 } }
    (InGoodOrder (.forceExpiry (p 0)) comm ∧ InGoodOrder (.forceExpiry (p 0)) off ∧ InGoodOrder (.forceExpiry (p 0)) plant
      ∧ InGoodOrder (.keepalive (p 0)) plant ∧ InGoodOrder (.keepalive (p 0)) (s .normal 5)
      ∧ InGoodOrder (.supervisionSet (p 5) ⟨10, 2, 0, 0, 1⟩) plant ∧ InGoodOrder (.supervisionSet (p 5) ⟨0, 1, 0, 0, 1⟩) plant
      ∧ InGoodOrder (.supervisionSet (p 5) ⟨0, 1, 0, 0, 1⟩) comm ∧ InGoodOrder (.supervisionSet (p 5) ⟨10, 1, 0, 0, 1⟩) plant)
      ∧ inReset (s .normal 1) = false ∧ (s .normal 1).supervision.remaining = 1 ∧ (s .hold 1).mode = .hold ∧ 0 < plant.supervision.timeout
      ∧ plant.supervision.window = true ∧ plant.supervision.timeout < 2 * plant.supervision.remaining
      ∧ ¬ (s .normal 5).supervision.timeout < 2 * (s .normal 5).supervision.remaining ∧ comm.mode = .commissioning := by
  refine ⟨⟨?_, ?_, ?_, ?_, ?_, ?_, ?_, ?_, ?_⟩, by decide +kernel⟩ <;> exact good (by decide +kernel)

/-- Each request in each mode; RECOVER with a train STOPPING, with a stale reading, and taken. -/
theorem witness_ModeRequests :
    let s := fun m => { base with mode := m }
    let busy' := withTrain .c0 (fun v => { v with state := .stopping }) (s .safe)
    let stale := { s .safe with account := { base.account with stale := true } }
    (InGoodOrder (.enterHold (p 0)) comm ∧ InGoodOrder (.enterHold (p 0)) (s .hold) ∧ InGoodOrder (.enterHold (p 0)) base
      ∧ InGoodOrder (.enterSafe (p 0)) comm ∧ InGoodOrder (.enterSafe (p 0)) (s .safe) ∧ InGoodOrder (.enterSafe (p 0)) base
      ∧ InGoodOrder (.resume (p 0)) base ∧ InGoodOrder (.resume (p 0)) (s .hold) ∧ InGoodOrder (.recover (p 0)) base
      ∧ InGoodOrder (.recover (p 0)) busy' ∧ InGoodOrder (.recover (p 0)) stale ∧ InGoodOrder (.recover (p 0)) (s .safe))
      ∧ (∀ x : TrainIx, ((s .safe).train x).state.permitted = false) ∧ (busy'.train .c0).state.permitted = true
      ∧ stale.account.stale = true ∧ (s .safe).account.stale = false := by
  refine ⟨⟨?_, ?_, ?_, ?_, ?_, ?_, ?_, ?_, ?_, ?_, ?_, ?_⟩, fun x => ?_, by decide +kernel⟩
  case refine_13 => cases x <;> decide +kernel
  all_goals exact good (by decide +kernel)

theorem witness_TradingClientCannotTouchPlant :
    (Instr.withdraw (q 2) 3).request? = some (.withdraw, q 2) ∧ (q 2).client = .trading
      ∧ ∃ t, exec (.withdraw (q 2) 3) plant = .next t :=
  ⟨by decide +kernel, by decide +kernel, _, rfl⟩

theorem witness_ResetSatisfiesEveryLaw :
    State.reset = State.afterReset (PerTrain.ofFn fun _ => false) := rfl

/-! #### A state that satisfies the laws and steps -/

/-- plant with a command waiting. -/
def queued (c : Instr) : State := plant.withPending [c]

theorem plant_account : AccountLaw (queued (.boundary ⟨[], []⟩)) := by unfold AccountLaw; decide +kernel
theorem plant_content : ContentLaw (queued (.boundary ⟨[], []⟩)) := fun i => by cases i <;> decide +kernel
theorem plant_activation : ActivationLaw (queued (.boundary ⟨[], []⟩)) := by unfold ActivationLaw; decide +kernel
theorem plant_separation : StoreSeparation (queued (.boundary ⟨[], []⟩)) := fun i => by cases i <;> decide +kernel
theorem plant_lists : StoreListLaw (queued (.boundary ⟨[], []⟩)) :=
  ⟨fun i => by cases i <;> decide +kernel, by decide +kernel, fun i => by cases i <;> decide +kernel⟩
theorem plant_table : TableLaw (queued (.boundary ⟨[], []⟩)) := by unfold TableLaw; decide +kernel
theorem plant_trial : TrialLaw (queued (.boundary ⟨[], []⟩)) := by show plant.proj.restarts = 0; decide +kernel

theorem witness_StepKeepsRanges :
    AccountLaw (queued (.boundary ⟨[], []⟩)) ∧ ContentLaw (queued (.boundary ⟨[], []⟩)) ∧ ActivationLaw (queued (.boundary ⟨[], []⟩))
      ∧ AssemblerLaw (queued (.boundary ⟨[], []⟩)) ∧ ∃ t, step (queued (.boundary ⟨[], []⟩)) = .next t :=
  ⟨plant_account, plant_content, plant_activation, trivial, _, rfl⟩

theorem witness_StepKeepsStoreLists :
    StoreSeparation (queued (.boundary ⟨[], []⟩)) ∧ StoreListLaw (queued (.boundary ⟨[], []⟩))
      ∧ ∃ t, step (queued (.boundary ⟨[], []⟩)) = .next t :=
  ⟨plant_separation, plant_lists, _, rfl⟩

theorem witness_StepKeepsTableAndIndex :
    let s := queued (.boundary ⟨[], []⟩)
    TableLaw s ∧ RoomLaw s ∧ IndexLaw s ∧ SeqLaw s ∧ s.table.lastSeq < 4294967295 ∧ ∃ t, step s = .next t :=
  ⟨plant_table, by unfold RoomLaw; decide +kernel, by unfold IndexLaw; decide +kernel, by unfold SeqLaw; decide +kernel,
    by decide +kernel, _, rfl⟩

theorem witness_StepKeepsPlantLaw :
    PlantLaw (queued (.boundary ⟨[], []⟩)) ∧ ∃ t, step (queued (.boundary ⟨[], []⟩)) = .next t :=
  ⟨⟨fun x => by cases x <;> decide +kernel, by unfold OneSideAtPower; decide +kernel, by decide +kernel,
    fun h => absurd h (by decide +kernel), fun _ x => by cases x <;> decide +kernel⟩, _, rfl⟩

theorem witness_StepKeepsPortLaw : PortLaw (queued (.boundary ⟨[], []⟩)) ∧ ∃ t, step (queued (.boundary ⟨[], []⟩)) = .next t :=
  ⟨⟨by unfold WalkLaw; decide +kernel, fun w h => (nomatch h), plant_trial, by unfold ReplyLaw; decide +kernel,
    by unfold CursorLaw; decide +kernel, by unfold LatchedLaw; decide +kernel⟩, _, rfl⟩

theorem plant_entries : EntryLaw (queued (.boundary ⟨[], []⟩)) := by unfold EntryLaw Entry.inRange; decide +kernel
theorem plant_credit : CreditLaw (queued (.boundary ⟨[], []⟩)) := by unfold CreditLaw Entry.creditedWithin; decide +kernel
theorem all_params : ∀ x : Param, x ∈ Param.all := by
  intro x
  cases x with
  | bandEdge i => revert i; decide +kernel
  | wC i => revert i; decide +kernel
  | wE i => revert i; decide +kernel
  | capHs i => cases i <;> decide +kernel
  | train t v => cases t <;> cases v <;> decide +kernel
  | _ => decide +kernel
theorem plant_due : DueLaw (queued (.boundary ⟨[], []⟩)) := ⟨fun _ _ h => (nomatch h), by decide +kernel⟩
theorem plant_limits : LimitsLaw (queued (.boundary ⟨[], []⟩)) := fun x =>
  (by decide +kernel : ∀ y ∈ Param.all, y.inRange ((queued (.boundary ⟨[], []⟩)).limits.get y) = true) x (all_params x)

theorem witness_StepKeepsLedgerLaw : LedgerLaw (queued (.boundary ⟨[], []⟩)) ∧ ∃ t, step (queued (.boundary ⟨[], []⟩)) = .next t :=
  ⟨⟨plant_entries, plant_credit, plant_due, plant_limits, plant_trial, by decide +kernel, fun h => absurd h (by decide +kernel),
    by decide +kernel, fun c h => (nomatch h), fun f h => (nomatch h)⟩, _, rfl⟩

end Sys2Proof.Tests
end

section
/-! SUPPORT. What a held power-on reset does to a command and to the pins, and what the state after reset holds (R1): each law, for
any statement that starts from reset. -/

namespace Sys2Proof.Machine

/-! ### While power-on reset is held (R1) -/

theorem inReset_iff (s : State) : inReset s = true ↔ s.por.supplyLow = true ∨ s.por.nrst = true := by simp [inReset]

/-- Every command but POWER_ON_RESET is judged behind the same gate: takeRequest opens with the test that unlessHeld makes. -/
theorem exec_eq_unlessHeld {c : Instr} (hc : ∀ lines, c ≠ .powerOnReset lines) :
    ∃ f, ∀ s, exec c s = .next (unlessHeld f s) := by
  cases c with
  | powerOnReset lines => exact absurd rfl (hc lines)
  | _ => exact ⟨_, fun _ => rfl⟩

theorem exec_held {c : Instr} {s : State} (hs : inReset s = true) (hc : ∀ lines, c ≠ .powerOnReset lines) :
    exec c s = .next s := by
  obtain ⟨f, hf⟩ := exec_eq_unlessHeld hc
  rw [hf, unlessHeld_held s f hs]

theorem attn_held {s : State} (hs : inReset s = true) : attn s = false := by simp [attn, hs]
theorem permit_held {s : State} (hs : inReset s = true) (x : TrainIx) : permit s x = false := by simp [permit, hs]
theorem heatOutput_held {s : State} (hs : inReset s = true) (x : TrainIx) : heatOutput s x = false := by
  simp [heatOutput, hs]

/-! ### The state after power-on reset -/

section
variable (lines : PerTrain Bool)

@[simp] theorem afterReset_port : (State.afterReset lines).port =
    { reply := [], inFlight := none, overrun := false, latched := 0, mask := defaultMask, cursor := Cursor.cleared } := rfl

@[simp] theorem afterReset_walk : (State.afterReset lines).proj.walk = none := rfl

@[simp] theorem afterReset_projState : (State.afterReset lines).proj.state = .unavailable := rfl

@[simp] theorem afterReset_train (x : TrainIx) :
    (State.afterReset lines).train x = Train.afterReset x (lines.get x) := by simp [State.train, State.afterReset]

@[simp] theorem afterReset_store (i : StoreIx) : (State.afterReset lines).store i = ⟨false, 0, []⟩ := by
  simp [State.store, State.afterReset]

/-- R100: a train's record in the figures of R171, R123's default order and R99's table. -/
theorem Train.afterReset_eq (x : TrainIx) (line : Bool) : Train.afterReset x line =
    { state := if line then .tripped else .cooldown, setpoint := 0, startClass := .cold
      stateTimer := if line then 0 else if x.side = .charge then 900 else 1200
      runTime := 0, downSince := 86401, startsToday := 0, tripsToday := 0, rank := x.side.trains.idxOf x + 1
      heater := .off, warm := false, tripLine := line, startLimited := false, excursionStopped := false } := by
  cases x <;> rfl

/-- R100: a train leaves reset TRIPPED or in COOLDOWN, so it is neither RUNNING nor may it be stopped. -/
theorem Train.afterReset_atRest (x : TrainIx) (line : Bool) :
    (Train.afterReset x line).state ≠ .running ∧ (Train.afterReset x line).state.stoppable = false := by
  cases line <;> simp [Train.afterReset, TrainState.stoppable]

/-- R171: every default lies in its parameter's range. -/
theorem Limits.default_inRange (p : Param) : p.inRange (Limits.default.get p) = true := by
  cases p with
  | bandEdge i => revert i; decide
  | wC i => revert i; decide
  | wE i => revert i; decide
  | capHs i => cases i <;> decide
  | train t q => cases t <;> cases q <;> decide
  | _ => decide

/-! ### The laws at reset -/

theorem afterReset_accountLaw : AccountLaw (State.afterReset lines) := by simp [AccountLaw, State.afterReset]

theorem afterReset_contentLaw : ContentLaw (State.afterReset lines) := fun i => by simp

theorem afterReset_activationLaw : ActivationLaw (State.afterReset lines) := by
  simp [ActivationLaw, State.afterReset, Activation.blank]

theorem afterReset_assemblerLaw : AssemblerLaw (State.afterReset lines) := trivial

theorem afterReset_storeSeparation : StoreSeparation (State.afterReset lines) := fun i => by simp [Store.holds]

theorem afterReset_storeListLaw : StoreListLaw (State.afterReset lines) := by
  simp [StoreListLaw, StoreIx.all]

theorem afterReset_tableLaw : TableLaw (State.afterReset lines) := by simp [TableLaw, State.afterReset]

theorem afterReset_roomLaw : RoomLaw (State.afterReset lines) := nofun

theorem afterReset_indexLaw : IndexLaw (State.afterReset lines) := .nil

theorem afterReset_seqLaw : SeqLaw (State.afterReset lines) := nofun

/-- R174: the record is open and the mode COMMISSIONING. -/
theorem afterReset_locked_iff :
    (State.afterReset lines).locked = true ↔ (State.afterReset lines).mode ≠ .commissioning := by
  simp [State.afterReset]

theorem afterReset_setpointLaw : SetpointLaw (State.afterReset lines) := fun x => by
  rw [afterReset_train, if_neg (Train.afterReset_atRest x (lines.get x)).1]
  rfl

theorem afterReset_oneSideAtPower : OneSideAtPower (State.afterReset lines) :=
  .inl (by simp [sideAtZero, Train.afterReset])

theorem afterReset_notStoppable (x : TrainIx) : ((State.afterReset lines).train x).state.stoppable = false := by
  simpa using (Train.afterReset_atRest x (lines.get x)).2

theorem afterReset_plantLaw : PlantLaw (State.afterReset lines) :=
  ⟨afterReset_setpointLaw lines, afterReset_oneSideAtPower lines, afterReset_locked_iff lines,
    fun _ => afterReset_notStoppable lines, nofun⟩

theorem afterReset_safeLaw : SafeLaw (State.afterReset lines) := fun _ => afterReset_notStoppable lines

theorem afterReset_lockLaw : LockLaw (State.afterReset lines) := ⟨afterReset_locked_iff lines, nofun⟩

theorem afterReset_walkLaw : WalkLaw (State.afterReset lines) :=
  ⟨List.length_replicate, by simp, by simp, Nat.zero_le 4⟩

theorem afterReset_walkHoldsTable : WalkHoldsTable (State.afterReset lines) := by simp [WalkHoldsTable]

theorem afterReset_trialLaw : TrialLaw (State.afterReset lines) := rfl

theorem afterReset_cursorLaw : CursorLaw (State.afterReset lines) := by simp [CursorLaw, Cursor.cleared]

theorem afterReset_replyLaw : ReplyLaw (State.afterReset lines) := by simp [ReplyLaw, busy]

theorem afterReset_portLaw : PortLaw (State.afterReset lines) :=
  ⟨afterReset_walkLaw lines, afterReset_walkHoldsTable lines, afterReset_trialLaw lines, afterReset_replyLaw lines,
    afterReset_cursorLaw lines, by simp [LatchedLaw]⟩

theorem afterReset_entryLaw : EntryLaw (State.afterReset lines) := by simp [EntryLaw, State.afterReset]

theorem afterReset_dueLaw : DueLaw (State.afterReset lines) := by simp [DueLaw, State.afterReset]

theorem afterReset_ledgerLaw : LedgerLaw (State.afterReset lines) :=
  ⟨afterReset_entryLaw lines, nofun, afterReset_dueLaw lines, Limits.default_inRange, afterReset_trialLaw lines,
    afterReset_locked_iff lines, fun _ => ⟨rfl, rfl⟩, Nat.le_refl 1000, nofun, nofun⟩

end

/-! ### What POWER_ON_RESET leaves -/

/-- R1: with no notice latched and the readings not yet seen, READING_STALE alone is pending. -/
theorem pendingNotices_afterReset (lines : PerTrain Bool) :
    pendingNotices (State.afterReset lines) = Notice.readingStale.bit := by
  simp [pendingNotices, levelNotices, State.afterReset]

end Sys2Proof.Machine
end

section
open Sys2Proof Sys2Proof.Machine

/-- Settles O54: law by law, from the lemmas of the state after reset. -/
theorem resetSatisfiesEveryLaw : Obligations.ResetSatisfiesEveryLaw := by
  rintro lines _ rfl
  exact ⟨afterReset_accountLaw lines, afterReset_contentLaw lines, afterReset_activationLaw lines,
    afterReset_assemblerLaw lines, afterReset_storeSeparation lines, afterReset_storeListLaw lines,
    afterReset_tableLaw lines, afterReset_roomLaw lines, afterReset_indexLaw lines, afterReset_seqLaw lines,
    afterReset_plantLaw lines, afterReset_safeLaw lines, afterReset_lockLaw lines, afterReset_portLaw lines,
    afterReset_ledgerLaw lines⟩

/-- Settles O14: the records are those of State.afterReset, a train's by Train.afterReset_eq; while a cause holds, the pins are
released and every other command stops at the gate of exec_held. -/
theorem powerOnResetPutsEveryRecord : Obligations.PowerOnResetPutsEveryRecord := by
  refine ⟨fun pins lines s => ⟨_, rfl, rfl, rfl, rfl, rfl, fun x => ?_, rfl, rfl, rfl, rfl, rfl, rfl, rfl, rfl, rfl, rfl,
    pendingNotices_afterReset lines, rfl, rfl, rfl, rfl⟩, fun s hheld => ?_⟩
  · exact (afterReset_train lines x).trans (Train.afterReset_eq x (lines.get x))
  · have hs : inReset s = true := (inReset_iff s).mpr hheld
    exact ⟨attn_held hs, fun x => ⟨permit_held hs x, heatOutput_held hs x⟩, fun c hc => exec_held hs hc⟩
end

section
/-! SUPPORT. The notice sets bit by bit (R189, R197), the status byte field by field (R183), and what a transaction shifts out
(R182, R187). -/

namespace Sys2Proof.Machine

/-! ### Notice sets (R189, R197) -/

/-- The sixteen notices in R197's order: each stands at the place of its bit. -/
def Notice.all : List Notice :=
  [.atRisk, .recovered, .entryClosed, .trainEvent, .trip, .rebased, .projectionDone, .order, .orderUnbacked, .orderShort,
    .clockSlip, .mode, .readingStale, .excursion, .heatReject, .heatTaper]

/-- R197: the place of a notice in a set. -/
def Notice.place (n : Notice) : Nat := Notice.all.idxOf n

theorem Notice.bit_eq_twoPow (n : Notice) : n.bit = BitVec.twoPow 16 n.place := by cases n <;> rfl

theorem Notice.place_lt (n : Notice) : n.place < 16 := by cases n <;> decide

/-- Every bit of a set is some notice's. -/
theorem Notice.exists_place {i : Nat} (hi : i < 16) : ∃ n : Notice, n.place = i :=
  ⟨Notice.all[i], (by decide : ∀ i : Fin 16, (Notice.all[i]).place = i) ⟨i, hi⟩⟩

theorem Notice.bit_ne_zero (n : Notice) : n.bit ≠ 0 := by cases n <;> decide

/-- A set masked by a notice's bit is that bit, or empty, by the bit at the notice's place. -/
theorem and_bit (v : Half) (n : Notice) : v &&& n.bit = if v.getLsbD n.place then n.bit else 0 := by
  rw [n.bit_eq_twoPow, BitVec.and_twoPow]
  rfl

theorem and_bit_eq_bit_iff (v : Half) (n : Notice) : v &&& n.bit = n.bit ↔ v.getLsbD n.place = true := by
  rw [and_bit]
  split
  next h => exact iff_of_true rfl h
  next h => exact iff_of_false n.bit_ne_zero.symm h

theorem and_bit_ne_zero_iff (v : Half) (n : Notice) : v &&& n.bit ≠ 0 ↔ v.getLsbD n.place = true := by
  rw [and_bit]
  split
  next h => exact iff_of_true n.bit_ne_zero h
  next h => exact iff_of_false (not_not_intro rfl) h

/-- Two sets meet exactly if some notice is in both. -/
theorem and_ne_zero_iff (v w : Half) : v &&& w ≠ 0 ↔ ∃ n : Notice, v &&& n.bit = n.bit ∧ w &&& n.bit = n.bit := by
  simp only [and_bit_eq_bit_iff]
  constructor
  · intro h
    by_contra hno
    refine h (BitVec.eq_of_getLsbD_eq fun i hi => ?_)
    obtain ⟨n, rfl⟩ := Notice.exists_place hi
    simpa using not_exists.mp hno n
  · rintro ⟨n, hv, hw⟩ h
    have := congrArg (fun u : Half => u.getLsbD n.place) h
    simp [hv, hw] at this

/-! ### The pending set (R189) -/

theorem attn_iff (s : State) :
    attn s = true ↔
      inReset s = false ∧ ∃ n : Notice, pendingNotices s &&& n.bit = n.bit ∧ s.port.mask &&& n.bit = n.bit := by
  rw [← and_ne_zero_iff]
  simp [attn]

theorem ite_bit_getLsbD (p : Prop) [Decidable p] (n : Notice) (i : Nat) :
    (if p then n.bit else 0).getLsbD i = (decide p && decide (n.place = i)) := by
  split <;> simp_all [n.bit_eq_twoPow, BitVec.getLsbD_twoPow, n.place_lt]

theorem levelNotices_getLsbD (s : State) (i : Nat) : (levelNotices s).getLsbD i =
    (s.account.stale && decide (12 = i)
      || decide (s.account.excHi ≠ .clear ∨ s.account.excLo ≠ .clear) && decide (13 = i)
      || s.heat.summary.reject && decide (14 = i) || s.heat.summary.taper && decide (15 = i)) := by
  simp only [levelNotices, BitVec.getLsbD_or, ite_bit_getLsbD, Bool.decide_eq_true]
  rfl

/-- R189: while no level notice is latched, the last four places of the pending set are those of the conditions. -/
theorem pendingNotices_getLsbD_of_latchedLaw {s : State} (h : LatchedLaw s) {i : Nat}
    (hi : (0xF000#16).getLsbD i = true) : (pendingNotices s).getLsbD i = (levelNotices s).getLsbD i := by
  have hlatched : s.port.latched.getLsbD i = false := by
    simpa [hi] using congrArg (fun u : Half => u.getLsbD i) h
  simp [pendingNotices, hlatched]

/-- R189: a level notice is pending exactly while its condition holds. -/
theorem level_pending_iff {s : State} (h : LatchedLaw s) (n : Notice) (hn : (0xF000#16).getLsbD n.place = true) :
    pendingNotices s &&& n.bit ≠ 0 ↔ (levelNotices s).getLsbD n.place = true := by
  rw [and_bit_ne_zero_iff, pendingNotices_getLsbD_of_latchedLaw h hn]

theorem readingStale_pending_iff {s : State} (h : LatchedLaw s) :
    pendingNotices s &&& Notice.readingStale.bit ≠ 0 ↔ s.account.stale = true := by
  rw [level_pending_iff h .readingStale rfl, levelNotices_getLsbD, show Notice.readingStale.place = 12 from rfl]
  simp

theorem excursion_pending_iff {s : State} (h : LatchedLaw s) :
    pendingNotices s &&& Notice.excursion.bit ≠ 0 ↔ s.account.excHi ≠ .clear ∨ s.account.excLo ≠ .clear := by
  rw [level_pending_iff h .excursion rfl, levelNotices_getLsbD, show Notice.excursion.place = 13 from rfl]
  simp

theorem heatReject_pending_iff {s : State} (h : LatchedLaw s) :
    pendingNotices s &&& Notice.heatReject.bit ≠ 0 ↔ s.heat.summary.reject = true := by
  rw [level_pending_iff h .heatReject rfl, levelNotices_getLsbD, show Notice.heatReject.place = 14 from rfl]
  simp

theorem heatTaper_pending_iff {s : State} (h : LatchedLaw s) :
    pendingNotices s &&& Notice.heatTaper.bit ≠ 0 ↔ s.heat.summary.taper = true := by
  rw [level_pending_iff h .heatTaper rfl, levelNotices_getLsbD, show Notice.heatTaper.place = 15 from rfl]
  simp

/-! ### The status byte (R183) -/

theorem bit_getLsbD (b : Bool) {k : Nat} (hk : k < 8) (i : Nat) : (bit b k).getLsbD i = (b && decide (i = k)) := by
  cases b
  · simp [bit]
  · simp [bit, ← BitVec.twoPow_eq, BitVec.getLsbD_twoPow, hk, eq_comm]

/-- The mode's code stands at bits 2 and 3. -/
theorem modeCode_mul_four (m : Mode) :
    BitVec.ofNat 8 (modeCode m * 4) = bit (modeCode m / 2 == 1) 3 ||| bit (modeCode m % 2 == 1) 2 := by
  cases m <;> rfl

theorem statusByte_getLsbD (s : State) (i : Nat) : (statusByte s).getLsbD i =
    (busy s && decide (i = 7) || replyWaiting s && decide (i = 6) || attn s && decide (i = 5)
      || s.port.overrun && decide (i = 4)
      || (modeCode s.mode / 2 == 1 && decide (i = 3) || modeCode s.mode % 2 == 1 && decide (i = 2))
      || s.locked && decide (i = 1) || decide (s.proj.state = .valid) && decide (i = 0)) := by
  simp only [statusByte, modeCode_mul_four, BitVec.getLsbD_or, bit_getLsbD, Nat.reduceLT]

theorem statusByte_mode (s : State) : (statusByte s).extractLsb' 2 2 = BitVec.ofNat 2 (modeCode s.mode) := by
  refine BitVec.eq_of_getLsbD_eq fun i hi => ?_
  rw [BitVec.getLsbD_extractLsb', statusByte_getLsbD]
  interval_cases i <;> cases s.mode <;> simp [modeCode]

/-! ### PERMIT (R106) -/

theorem permit_iff (s : State) (x : TrainIx) : permit s x = true ↔
    inReset s = false ∧ ((s.train x).state = .starting ∨ (s.train x).state = .ready ∨ (s.train x).state = .running
      ∨ (s.train x).state = .stopping) := by
  cases h : (s.train x).state <;> simp [permit, TrainState.permitted, h]

/-! ### A transaction (R182, R187) -/

/-- R187: what a read of n bytes shifts out after the status byte. -/
def readBytes (reply : List Byte) (n : Nat) : List Byte := (reply ++ List.replicate n 0).take n

theorem length_readBytes (reply : List Byte) (n : Nat) : (readBytes reply n).length = n := by simp [readBytes]

theorem getElem?_readBytes (reply : List Byte) {n k : Nat} (hk : k < n) :
    (readBytes reply n)[k]? = some (reply.getD k 0) := by
  rw [readBytes, List.getElem?_take_of_lt hk, List.getElem?_append]
  split
  next h => simp [h]
  next h => simp [show k - reply.length < n by omega, h]

theorem transactionOut_nil {s : State} (hs : inReset s = false) : transactionOut s [] = [statusByte s] := by
  simp [transactionOut, hs]

theorem transactionOut_read {s : State} (hs : inReset s = false) (rest : List Byte) :
    transactionOut s (0x02 :: rest) = statusByte s :: readBytes s.port.reply rest.length := by
  simp [transactionOut, hs, readBytes]

theorem transactionOut_other {s : State} (hs : inReset s = false) {command : Byte} (hc : command ≠ 0x02)
    (rest : List Byte) : transactionOut s (command :: rest) = statusByte s :: List.replicate rest.length 0 := by
  simp_all [transactionOut]

end Sys2Proof.Machine
end

section
open Sys2Proof Sys2Proof.Machine

/-- Settles O10: ATTN and the level notices by the places of a notice set, the status byte by its bits, and MISO by the three
kinds of transaction. -/
theorem attnFollowsPendingAndMask : Obligations.AttnFollowsPendingAndMask := by
  intro s
  refine ⟨attn_iff s, fun h => ⟨readingStale_pending_iff h, excursion_pending_iff h, heatReject_pending_iff h,
    heatTaper_pending_iff h⟩, permit_iff s, ?_, fun hs => ⟨transactionOut_nil hs, fun command rest => ?_⟩⟩
  · simp only [statusByte_getLsbD, statusByte_mode]
    refine ⟨by simp [busy], by simp [replyWaiting], by simp, by simp, ?_, by simp, by simp⟩
    cases s.mode <;> rfl
  · by_cases hc : command = 0x02
    · subst hc
      exact ⟨_, transactionOut_read hs rest, length_readBytes _ _, fun _ _ hk => getElem?_readBytes _ hk,
        fun _ h => absurd rfl h⟩
    · exact ⟨_, transactionOut_other hs hc rest, List.length_replicate, fun h => absurd h hc,
        fun _ _ _ hb => List.eq_of_mem_replicate hb⟩

end

section
/-! SUPPORT. What a request's owner reads of the accepted state: every record but the port and the supervision timer stands as
before the frame (R184, R186). -/

namespace Sys2Proof.Machine

set_option Elab.async false

section
variable (s : State)

@[simp] theorem accepted_account : s.accepted.account = s.account := (accepted_touches s).get .account
@[simp] theorem accepted_heat : s.accepted.heat = s.heat := (accepted_touches s).get .heat
@[simp] theorem accepted_table : s.accepted.table = s.table := (accepted_touches s).get .table
@[simp] theorem accepted_proj : s.accepted.proj = s.proj := (accepted_touches s).get .proj
@[simp] theorem accepted_trains : s.accepted.trains = s.trains := (accepted_touches s).get .trains
@[simp] theorem accepted_clock : s.accepted.clock = s.clock := (accepted_touches s).get .clock
@[simp] theorem accepted_dispatch : s.accepted.dispatch = s.dispatch := (accepted_touches s).get .dispatch
@[simp] theorem accepted_orders : s.accepted.orders = s.orders := (accepted_touches s).get .orders
@[simp] theorem accepted_mode : s.accepted.mode = s.mode := (accepted_touches s).get .mode
@[simp] theorem accepted_limits : s.accepted.limits = s.limits := (accepted_touches s).get .limits
@[simp] theorem accepted_locked : s.accepted.locked = s.locked := (accepted_touches s).get .locked

@[simp] theorem accepted_store (i : StoreIx) : s.accepted.store i = s.store i := by rw [State.store, accepted_heat]; rfl
@[simp] theorem accepted_paramsOf (x : TrainIx) : paramsOf s.accepted x = paramsOf s x := by
  rw [paramsOf, accepted_limits]; rfl

/-- R184: what acceptance leaves of the port. -/
theorem accepted_port : s.accepted.port = { s.port with reply := [], overrun := false } := by
  unfold State.accepted refreshAny; split <;> rfl

/-- A figure that reads neither the port nor the supervision record is the same after acceptance. -/
theorem accepted_reads {β : Type} (figure : State → β)
    (h : ∀ p v, figure { s with port := p, supervision := v } = figure s) : figure s.accepted = figure s := by
  obtain ⟨n, hn⟩ := accepted_eq s
  rw [hn]
  exact h _ _

end

/-! ### Indices that name no record (R196) -/

theorem storeOf_none {b : Byte} (h : 3 ≤ b.toNat) : storeOf b = none := List.getElem?_eq_none h

theorem trainOf_none {b : Byte} (h : 7 ≤ b.toNat) : trainOf b = none := List.getElem?_eq_none h

theorem patternOf_none {b : Byte} (h : 8 ≤ b.toNat) : patternOf b = none := dif_neg (Nat.not_lt.mpr h)

theorem paramOfIndex_none {b : Byte} (h : 112 ≤ b.toNat) : Param.ofIndex b.toNat = none := List.getElem?_eq_none h

theorem findEntry_none {s : State} {id : Nat} (h : ∀ e ∈ s.table.entries, e.id ≠ id) : findEntry s id = none :=
  List.find?_eq_none.mpr fun e he => by simpa using h e he

/-! ### The readers (R25, R43, R61, R96, R124, R133, R152, R164, R173) -/

section
variable (s : State)

theorem ownReadStore_some {b : Byte} {i : StoreIx} (h : storeOf b = some i) :
    ownReadStore b s = answer 0x1A .ok (storeBytes s i) s := by
  simp only [ownReadStore, h]; rfl

theorem ownReadStore_none {b : Byte} (h : storeOf b = none) :
    ownReadStore b s = answer 0x1A .badArgument [] s := by
  simp only [ownReadStore, h]; rfl

theorem ownQueryEntry_some {id : Half} {e : Entry} (h : findEntry s id.toNat = some e) :
    ownQueryEntry id s = answer 0x24 .ok (entryBytes e) s := by
  simp only [ownQueryEntry, h]; rfl

theorem ownQueryEntry_none {id : Half} (h : findEntry s id.toNat = none) :
    ownQueryEntry id s = answer 0x24 .noSuchEntry [] s := by
  simp only [ownQueryEntry, h]; rfl

theorem ownReadTrain_some {b : Byte} {x : TrainIx} (h : trainOf b = some x) :
    ownReadTrain b s = answer 0x36 .ok (trainBytes s x) s := by
  simp only [ownReadTrain, h]; rfl

theorem ownReadTrain_none {b : Byte} (h : trainOf b = none) :
    ownReadTrain b s = answer 0x36 .badArgument [] s := by
  simp only [ownReadTrain, h]; rfl

theorem ownPatternRead_some {b : Byte} {p : Fin 8} (h : patternOf b = some p) :
    ownPatternRead b s = answer 0x39 .ok (patternBytes (patternAt s p)) s := by
  simp only [ownPatternRead, h]; rfl

theorem ownPatternRead_none {b : Byte} (h : patternOf b = none) :
    ownPatternRead b s = answer 0x39 .badArgument [] s := by
  simp only [ownPatternRead, h]; rfl

theorem ownParamRead_some {b : Byte} {p : Param} (h : Param.ofIndex b.toNat = some p) :
    ownParamRead b s = answer 0x49 .ok
      (u8 b.toNat ++ u32 (s.limits.get p) ++ u32 (Limits.default.get p) ++ flag s.locked) s := by
  simp only [ownParamRead, h]; rfl

theorem ownParamRead_none {b : Byte} (h : Param.ofIndex b.toNat = none) :
    ownParamRead b s = answer 0x49 .badArgument [] s := by
  simp only [ownParamRead, h]; rfl

end

end Sys2Proof.Machine
end

section
open Sys2Proof Sys2Proof.Machine

set_option Elab.async false

/-- Settles O17: each reader's two cases, on the accepted state, whose records are those before the frame. -/
theorem readersAnswerAndChangeNothing : Obligations.ReadersAnswerAndChangeNothing := by
  intro s h b id
  refine ⟨fun hg => ?_, fun hg => ⟨fun i hi => ?_, fun hb => ?_⟩, fun hg => ⟨fun e he => ?_, fun hno => ?_⟩, fun hg => ?_,
    fun hg => ⟨fun x hx => ?_, fun hb => ?_⟩, fun hg => ⟨fun p hp => ?_, fun hb => ?_⟩, fun hg => ?_, fun hg => ?_,
    fun hg => ⟨fun p hp => ?_, fun hb => ?_⟩, fun client hn hb => ?_⟩
  · rw [exec_readAccount h hg, accepted_account]; rfl
  · rw [exec_readStore h b hg, ownReadStore_some _ hi, accepted_reads s (storeBytes · i) fun _ _ => rfl]
  · exact (exec_readStore h b hg).trans (congrArg _ (ownReadStore_none _ (storeOf_none hb)))
  · rw [exec_queryEntry h id hg, ownQueryEntry_some]
    simpa only [findEntry, accepted_table] using he
  · refine (exec_queryEntry h id hg).trans (congrArg _ (ownQueryEntry_none _ (findEntry_none ?_)))
    simpa only [accepted_table] using hno
  · rw [exec_projectionState h hg, accepted_proj]; rfl
  · rw [exec_readTrain h b hg, ownReadTrain_some _ hx, accepted_reads s (trainBytes · x) fun _ _ => rfl]
  · exact (exec_readTrain h b hg).trans (congrArg _ (ownReadTrain_none _ (trainOf_none hb)))
  · rw [exec_patternRead h b hg, ownPatternRead_some _ hp, accepted_reads s (patternAt · p) fun _ _ => rfl]
  · exact (exec_patternRead h b hg).trans (congrArg _ (ownPatternRead_none _ (patternOf_none hb)))
  · rw [exec_orderState h hg, accepted_reads s orderStateBytes fun _ _ => rfl]; rfl
  · rw [exec_clockRead h hg, accepted_reads s clockReadBytes fun _ _ => rfl]; rfl
  · rw [exec_paramRead h b hg, ownParamRead_some _ hp, accepted_limits, accepted_locked]
  · exact (exec_paramRead h b hg).trans (congrArg _ (ownParamRead_none _ (paramOfIndex_none hb)))
  · exact exec_identify ⟨client, 0⟩ ⟨hn, hb, _, _, rfl, by cases client <;> rfl, rfl⟩

end

section
/-! SUPPORT. The counts of R7, R101 and R119 that reach their end, and the two requests that clear what a reading has set: REBASE
(R19) and EXCURSION_CLEAR (R24). -/

namespace Sys2Proof.Machine

set_option Elab.async false

section
variable {s : State}

/-! ### The three counts (R7, R101, R119) -/

/-- R7: the age after the count that reaches READ_STALE. -/
theorem Account.age_reaches {a : Account} {l : Limits} (hseen : a.readingSeen = true) (hage : a.readingAge < 65535)
    (h : l.readStale = a.readingAge + 1) : a.age l = { a with readingAge := l.readStale, stale := true } := by
  simp [Account.age, hseen, h, Nat.min_eq_right (Nat.succ_le_of_lt hage)]

/-- R119: a train down for longer than HOT_WINDOW is COLD. -/
theorem judgedClass_pastWindow {l : Limits} {x : TrainIx} {v : Train} (hv : v.state = .idle ∨ v.state = .cooldown)
    (h : l.hotWindow < v.downSince) : judgedClass l x v = .cold := by
  have hn : ¬ v.downSince ≤ l.hotWindow := Nat.not_le.mpr h
  rcases hv with hv | hv <;> simp [judgedClass, hv, hn]

/-- R119: writing a record whose class changes hands on a basis change. -/
theorem putTrain_classChanges {x : TrainIx} {v : Train} (h : judgedClass s.limits x v ≠ (s.train x).startClass) :
    putTrain x v s = basisChange (s.setTrain x (classed s.limits x v)) := if_neg h

/-- R119: writing a record whose class stands hands on nothing. -/
theorem putTrain_classStands {x : TrainIx} {v : Train} (h : judgedClass s.limits x v = (s.train x).startClass) :
    putTrain x v s = s.setTrain x (classed s.limits x v) := if_pos h

/-- R119: the next count of a HOT idle train at HOT_WINDOW passes it. -/
theorem hotWindowEnds_iff (x : TrainIx) : hotWindowEnds s x = true ↔
    (s.train x).state.permitted = false ∧ (s.train x).startClass = .hot ∧ s.limits.hotWindow ≤ (s.train x).downSince := by
  simp [hotWindowEnds, and_assoc]

/-- R119: what the count that passes HOT_WINDOW writes. -/
theorem putTrain_pastWindow {x : TrainIx} (hv : (s.train x).state = .idle ∨ (s.train x).state = .cooldown)
    (hhot : (s.train x).startClass = .hot) (hd : (s.train x).downSince = s.limits.hotWindow)
    (hw : s.limits.hotWindow ≤ 86400) :
    putTrain x { s.train x with downSince := min 86401 ((s.train x).downSince + 1) } s =
      basisChange (s.setTrain x { s.train x with downSince := s.limits.hotWindow + 1, startClass := .cold }) := by
  rw [hd, Nat.min_eq_right (Nat.succ_le_succ hw)]
  have hcold : judgedClass s.limits x { s.train x with downSince := s.limits.hotWindow + 1 } = .cold :=
    judgedClass_pastWindow hv (Nat.lt_succ_self _)
  rw [putTrain_classChanges (by rw [hcold, hhot]; decide), classed, hcold]

/-! ### Excursion sides (R21 to R24, R116) -/

/-- R116: clearing a side's flag, train by train. -/
theorem eachTrain_clearExcursionStopped_train (ts : List TrainIx) (s : State) (x : TrainIx) :
    (eachTrain clearExcursionStopped ts s).train x =
      if x ∈ ts then { s.train x with excursionStopped := false } else s.train x := by
  induction ts generalizing s with
  | nil => rfl
  | cons t ts ih =>
    rw [show eachTrain clearExcursionStopped (t :: ts) s = eachTrain clearExcursionStopped ts (clearExcursionStopped t s)
      from rfl, ih]
    by_cases hx : x = t
    · subst hx; simp [clearExcursionStopped]
    · simp [clearExcursionStopped, hx]

/-- R116: the flags are the trains' own; no other record is touched. -/
theorem eachTrain_clearExcursionStopped_touches (ts : List TrainIx) (s : State) :
    Touches [.trains] s (eachTrain clearExcursionStopped ts s) :=
  eachTrain_touches s _ (fun t u => setTrain_touches u t _) ts

/-- The account with a side's excursion state. -/
def Account.setSide (a : Account) (side : Side) (e : Excursion) : Account :=
  match side with
  | .charge => { a with excHi := e }
  | .discharge => { a with excLo := e }

@[simp] theorem excursionOf_setSide (a : Account) (d d' : Side) (e : Excursion) :
    excursionOf (a.setSide d e) d' = if d' = d then e else excursionOf a d' := by cases d <;> cases d' <;> rfl

theorem setExcursion_stands {side : Side} {e : Excursion} (h : e = excursionOf s.account side) :
    setExcursion side e s = s := by
  subst h
  cases side <;> exact if_pos rfl

theorem setExcursion_changes {side : Side} {e : Excursion} (h : e ≠ excursionOf s.account side) :
    setExcursion side e s = excursionChanged side e (s.withAccount (s.account.setSide side e)) := by
  cases side <;> exact if_neg h

end

/-- R24: what clearing a named side leaves: a HELD side becomes CLEAR with its trains' flags; any other stands. -/
theorem clearSide_spec (side : Side) (s : State) :
    (clearSide side s).account =
        (if excursionOf s.account side = .held then s.account.setSide side .clear else s.account)
      ∧ (∀ x : TrainIx, (clearSide side s).train x =
        if x.side = side ∧ excursionOf s.account side = .held then { s.train x with excursionStopped := false }
        else s.train x)
      ∧ Touches [.account, .trains] s (clearSide side s) := by
  by_cases hheld : excursionOf s.account side = .held
  · have hne : Excursion.clear ≠ excursionOf s.account side := by simp [hheld]
    have hc : clearSide side s =
        eachTrain clearExcursionStopped side.trains (s.withAccount (s.account.setSide side .clear)) := by
      rw [clearSide, if_pos hheld, setExcursion_changes hne]; rfl
    have ht := eachTrain_clearExcursionStopped_touches side.trains (s.withAccount (s.account.setSide side .clear))
    refine ⟨?_, fun x => ?_, ?_⟩
    · rw [hc, if_pos hheld]; exact ht.get .account
    · rw [hc, eachTrain_clearExcursionStopped_train]; simp [hheld]; rfl
    · rw [hc]; exact (touches_withAccount s _).comp ht
  · rw [clearSide, if_neg hheld]
    exact ⟨(if_neg hheld).symm, fun x => (if_neg fun h => hheld h.2).symm, Touches.same _ s⟩

/-- R24: a side is cleared if it is named. -/
def clearNamed (named : Bool) (side : Side) (s : State) : State := if named then clearSide side s else s

/-- R24: the sides that EXCURSION_CLEAR clears: those named that are HELD. -/
def clears (named : Bool) (side : Side) (s : State) : Bool := named && decide (excursionOf s.account side = .held)

theorem clearNamed_account (named : Bool) (side : Side) (s : State) : (clearNamed named side s).account =
    if clears named side s then s.account.setSide side .clear else s.account := by
  cases named
  · rfl
  · simpa [clearNamed, clears] using (clearSide_spec side s).1

theorem clearNamed_train (named : Bool) (side : Side) (s : State) (x : TrainIx) : (clearNamed named side s).train x =
    if x.side = side ∧ clears named side s then { s.train x with excursionStopped := false } else s.train x := by
  cases named
  · simp [clearNamed, clears]
  · simpa [clearNamed, clears] using (clearSide_spec side s).2.1 x

theorem clearNamed_touches (named : Bool) (side : Side) (s : State) :
    Touches [.account, .trains] s (clearNamed named side s) := by
  unfold clearNamed; split
  · exact (clearSide_spec side s).2.2
  · exact Touches.same _ s

/-- Clearing one side does not bear on whether the other is cleared. -/
theorem clears_clearNamed {named named' : Bool} {side other : Side} (h : other ≠ side) (s : State) :
    clears named' other (clearNamed named side s) = clears named' other s := by
  rw [clears, clearNamed_account]
  split <;> simp [h, clears]

/-- R24: the sides a code names; a code of 3 or more names none. -/
theorem excursionSidesOf_some {b : Byte} (h : b.toNat < 3) :
    excursionSidesOf b = some (decide (b.toNat = 0 ∨ b.toNat = 2), decide (b.toNat = 1 ∨ b.toNat = 2)) := by
  unfold excursionSidesOf
  interval_cases b.toNat <;> rfl

theorem excursionSidesOf_none {b : Byte} (h : 3 ≤ b.toNat) : excursionSidesOf b = none := List.getElem?_eq_none h

/-! ### The owners (R19, R24) -/

section
variable {s : State}

theorem ownRebase_stale (h : s.account.stale = true) : ownRebase s = answer 0x12 .unavailable [] s := if_pos h

/-- R19: the owner of a fresh REBASE, for the mass and pressure that the reading gives. -/
theorem ownRebase_fresh_of_reading (h : s.account.stale = false) {m p : Nat}
    (hmp : s.account.massFromReading s.limits = { s.account with mass := m, pCalc := p }) :
    ownRebase s = answer 0x12 .ok (u32 s.account.mass ++ u32 m ++ u16 p)
      (basisChange (raise .rebased (s.withAccount { s.account with mass := m, pCalc := p, eC := 0, eE := 0 }))) := by
  unfold ownRebase
  rw [if_neg (by simp [h]), hmp]
  rfl

theorem ownRebase_fresh (h : s.account.stale = false) : ownRebase s =
    (let m := massFromPressure s.limits s.account.pMeas s.account.tMeas
     let p := pressureFromMass s.limits m s.account.tMeas
     answer 0x12 .ok (u32 s.account.mass ++ u32 m ++ u16 p)
      (basisChange (raise .rebased (s.withAccount { s.account with mass := m, pCalc := p, eC := 0, eE := 0 })))) :=
  ownRebase_fresh_of_reading h rfl

theorem ownExcursionClear_badSide {b : Byte} (h : 3 ≤ b.toNat) :
    ownExcursionClear b s = answer 0x13 .badArgument [] s := by
  simp only [ownExcursionClear, excursionSidesOf_none h]; rfl

/-- R24: a named side is ACTIVE. -/
def NamesActive (hi lo : Bool) (a : Account) : Prop := (hi = true ∧ a.excHi = .active) ∨ (lo = true ∧ a.excLo = .active)

section
variable {b : Byte} {hi lo : Bool} (hb : excursionSidesOf b = some (hi, lo))
include hb

theorem ownExcursionClear_stale (h : s.account.stale = true) :
    ownExcursionClear b s = answer 0x13 .unavailable [] s := by
  simp only [ownExcursionClear, hb]; exact if_pos h

theorem ownExcursionClear_active (h : s.account.stale = false) (ha : NamesActive hi lo s.account) :
    ownExcursionClear b s = answer 0x13 .wrongState [] s := by
  simp only [ownExcursionClear, hb]; exact (if_neg (by simp [h])).trans (if_pos ha)

theorem ownExcursionClear_taken (h : s.account.stale = false) (ha : ¬ NamesActive hi lo s.account) :
    ownExcursionClear b s =
      (let t := clearNamed lo .discharge (clearNamed hi .charge s)
       answer 0x13 .ok (u8 t.account.excHi.code ++ u8 t.account.excLo.code) t) := by
  simp only [ownExcursionClear, hb]; exact (if_neg (by simp [h])).trans (if_neg ha)

end

end

/-- R24: what clearing the named sides leaves of the account and of each train. -/
theorem clearBoth_account (hi lo : Bool) (s : State) :
    (clearNamed lo .discharge (clearNamed hi .charge s)).account =
      { s.account with
        excHi := if clears hi .charge s then .clear else s.account.excHi
        excLo := if clears lo .discharge s then .clear else s.account.excLo } := by
  simp only [clearNamed_account, clears_clearNamed (show Side.discharge ≠ .charge from nofun)]
  cases clears hi .charge s <;> cases clears lo .discharge s <;> rfl

theorem clearBoth_train (hi lo : Bool) (s : State) (x : TrainIx) :
    (clearNamed lo .discharge (clearNamed hi .charge s)).train x =
      if clears (if x.side = .charge then hi else lo) x.side s then { s.train x with excursionStopped := false }
      else s.train x := by
  simp only [clearNamed_train, clears_clearNamed (show Side.discharge ≠ .charge from nofun)]
  cases x.side <;> simp

theorem clearBoth_touches (hi lo : Bool) (s : State) :
    Touches [.account, .trains] s (clearNamed lo .discharge (clearNamed hi .charge s)) :=
  (clearNamed_touches hi .charge s).trans (clearNamed_touches lo .discharge _)

end Sys2Proof.Machine
end

section
open Sys2Proof Sys2Proof.Machine

set_option Elab.async false

/-- Settles O35: each row's guard holds, and its one count is the whole change. -/
theorem classCycleAndAgeExpiries : Obligations.ClassCycleAndAgeExpiries := by
  intro s hs
  refine ⟨fun hfresh hseen hage hlimit => ?_, fun x hv hhot hd hw => ?_, fun h => ?_, fun h => ?_⟩
  · refine congrArg Host.Outcome.next ((unlessHeld_taken s _ hs).trans ?_)
    rw [Account.age_reaches hseen hage hlimit]
    exact if_pos ⟨hfresh, rfl⟩
  · refine congrArg Host.Outcome.next ((unlessHeld_taken s _ hs).trans ?_)
    have hends : hotWindowEnds s x = true :=
      (hotWindowEnds_iff x).mpr ⟨by rcases hv with hv | hv <;> rw [hv] <;> rfl, hhot, hd.ge⟩
    rw [if_pos hends]
    exact putTrain_pastWindow hv hhot hd hw
  · exact congrArg Host.Outcome.next ((unlessHeld_taken s _ hs).trans (if_pos h))
  · exact congrArg Host.Outcome.next ((unlessHeld_taken s _ hs).trans (if_pos h))

/-- Settles O18: REBASE in its two cases; EXCURSION_CLEAR in its order, and side by side where it is taken. -/
theorem rebaseAndExcursionClear : Obligations.RebaseAndExcursionClear := by
  refine ⟨fun s h hg => ⟨fun hstale => ?_, fun hfresh => ?_⟩, fun s h side hg =>
    ⟨fun hside => ?_, fun hside hstale => ?_, fun hside hfresh hactive => ?_, fun hside hfresh hactive => ?_⟩⟩
  · rw [Refuses, exec_rebase h hg, ownRebase_stale (by simpa using hstale)]
  · rw [exec_rebase h hg, ownRebase_fresh (by simpa using hfresh), accepted_account, accepted_limits]
  · rw [Refuses, exec_excursionClear h side hg, ownExcursionClear_badSide hside]
  · rw [Refuses, exec_excursionClear h side hg,
      ownExcursionClear_stale (excursionSidesOf_some hside) (by simpa using hstale)]
  · rw [Refuses, exec_excursionClear h side hg,
      ownExcursionClear_active (excursionSidesOf_some hside) (by simpa using hfresh) (by simpa [NamesActive] using hactive)]
  · refine ⟨_, (exec_excursionClear h side hg).trans (congrArg _ (ownExcursionClear_taken (excursionSidesOf_some hside)
      (by simpa using hfresh) (by simpa [NamesActive] using hactive))), ?_⟩
    have ha := clearBoth_account (decide (side.toNat = 0 ∨ side.toNat = 2)) (decide (side.toNat = 1 ∨ side.toNat = 2))
      s.accepted
    have hx := clearBoth_train (decide (side.toNat = 0 ∨ side.toNat = 2)) (decide (side.toNat = 1 ∨ side.toNat = 2))
      s.accepted
    have hf := clearBoth_touches (decide (side.toNat = 0 ∨ side.toNat = 2)) (decide (side.toNat = 1 ∨ side.toNat = 2))
      s.accepted
    generalize clearNamed _ _ (clearNamed _ _ s.accepted) = u at ha hx hf ⊢
    simp only [clears, accepted_account, accepted_train, Bool.and_eq_true, decide_eq_true_eq] at ha hx
    refine ⟨fun h => ?_, fun h => ?_, fun h => ?_, fun h => ?_, ?_, fun x h => ?_, fun x h => ?_, ⟨rfl, rfl⟩,
      Touches.comp ((accepted_touches s).comp hf : Touches [.account, .trains, .port, .supervision] s u)
        (answer_touches u _ _ _)⟩
    · exact (congrArg Account.excHi ha).trans (if_pos h)
    · exact (congrArg Account.excHi ha).trans (if_neg h)
    · exact (congrArg Account.excLo ha).trans (if_pos h)
    · exact (congrArg Account.excLo ha).trans (if_neg h)
    · show u.account = { s.account with excHi := u.account.excHi, excLo := u.account.excLo }
      rw [ha]
    · refine (hx x).trans (if_pos ?_)
      cases hd : x.side <;> simpa [hd] using h
    · refine (hx x).trans (if_neg ?_)
      cases hd : x.side <;> simpa [hd] using h

end

section
/-! SUPPORT. Pressure and mass (R13, R14): two divisions rounded down, by numbers of which one is always the larger. -/

namespace Sys2Proof.Machine

set_option Elab.async false

/-! ### Down and back by two rounded divisions -/

/-- Taken down by b and back by a, a figure never rises. -/
theorem div_mul_div_le (a b p : Nat) : p * a / b * b / a ≤ p :=
  Nat.div_le_of_le_mul ((Nat.div_mul_le_self (p * a) b).trans_eq (Nat.mul_comm p a))

/-- With b at most a, the figure loses at most 1: what the division by b drops is less than b. -/
theorem le_div_mul_div_succ {a b : Nat} (hb : 0 < b) (hba : b ≤ a) (p : Nat) : p ≤ p * a / b * b / a + 1 := by
  have hrest : p * a < p * a / b * b + b := Nat.lt_div_mul_add hb
  have hback : p * a / b * b < (p * a / b * b / a + 1) * a :=
    (Nat.lt_mul_div_succ _ (hb.trans_le hba)).trans_eq (Nat.mul_comm _ _)
  have hlt : p * a < (p * a / b * b / a + 1 + 1) * a := by
    calc p * a < p * a / b * b + b := hrest
      _ ≤ p * a / b * b + a := Nat.add_le_add_left hba _
      _ < (p * a / b * b / a + 1) * a + a := Nat.add_lt_add_right hback a
      _ = (p * a / b * b / a + 1 + 1) * a := (Nat.succ_mul _ a).symm
  exact Nat.le_of_lt_succ (Nat.lt_of_mul_lt_mul_right hlt)

/-! ### The two numbers of R13 and R14 -/

/-- The multiplier of R14: kPa to kg before the division. -/
def massFactor (l : Limits) : Nat := l.vCav * 10000000

/-- The divisor of R14: 287 · T · Z. -/
def gasFactor (l : Limits) (tdk : Nat) : Nat := 287 * tdk * l.zPm

theorem pressureFromMass_eq (l : Limits) (m tdk : Nat) :
    pressureFromMass l m tdk = min 20000 (m * gasFactor l tdk / massFactor l) := by
  rw [pressureFromMass, gasFactor, massFactor, ← Nat.mul_assoc, ← Nat.mul_assoc]

theorem massFromPressure_eq (l : Limits) (p tdk : Nat) :
    massFromPressure l p tdk = min 100000000 (p * massFactor l / gasFactor l tdk) := by
  rw [massFromPressure, gasFactor, massFactor, ← Nat.mul_assoc]

/-- R171: a value in range lies between the parameter's bounds. -/
theorem Param.bounds_of_inRange {p : Param} {v : Nat} (h : p.inRange v = true) : p.range.1 ≤ v ∧ v ≤ p.range.2 := by
  simp only [Param.inRange, Bool.and_eq_true, decide_eq_true_eq] at h
  exact h.1

/-- R171: over the ranges of T, Z_PM and V_CAV the gas factor is positive and below the mass factor. -/
theorem gasFactor_bounds {l : Limits} {tdk : Nat} (hlo : 2500 ≤ tdk) (hhi : tdk ≤ 3500)
    (hz : Param.zPm.inRange l.zPm = true) (hv : Param.vCav.inRange l.vCav = true) :
    0 < gasFactor l tdk ∧ gasFactor l tdk ≤ massFactor l := by
  obtain ⟨hz1, hz2⟩ : 900 ≤ l.zPm ∧ l.zPm ≤ 1100 := Param.bounds_of_inRange hz
  obtain ⟨hv1, -⟩ : 50000 ≤ l.vCav ∧ l.vCav ≤ 2000000 := Param.bounds_of_inRange hv
  refine ⟨Nat.mul_pos (Nat.mul_pos (by decide) (by omega)) (by omega), ?_⟩
  calc gasFactor l tdk ≤ 287 * 3500 * 1100 := Nat.mul_le_mul (Nat.mul_le_mul_left 287 hhi) hz2
    _ ≤ massFactor l := by unfold massFactor; omega

end Sys2Proof.Machine
end

section
open Sys2Proof Sys2Proof.Machine

set_option Elab.async false

/-- Settles O20: both figures are divisions rounded down; below the ceilings the round trip is theirs. -/
theorem pressureRoundTripLosesAtMostOne : Obligations.PressureRoundTripLosesAtMostOne := by
  intro l p k hp hk1 hk2 hz hv
  obtain ⟨hpos, hle⟩ := gasFactor_bounds hk1 hk2 hz hv
  rw [massFromPressure_eq, pressureFromMass_eq]
  refine ⟨(min_le_right _ _).trans ?_, fun hroom => ?_⟩
  · exact (Nat.div_le_div_right (Nat.mul_le_mul_right _ (min_le_right _ _))).trans (div_mul_div_le _ _ p)
  · have hmass : p * massFactor l / gasFactor l k ≤ 100000000 := by omega
    have hback := le_div_mul_div_succ hpos hle p
    rw [min_eq_right hmass]
    omega

end

section
/-! SUPPORT. What the sequencer's operations and the dispatcher's requests have in common, said once: they write train records and
store lists, raise notices and restart the engine's walk, and leave the stores' heat, the heater cycles, the mask and the
dispatcher's figures. -/

namespace Sys2Proof.Machine

set_option Elab.async false

/-! ### The port: notices are only added -/

/-- The mask stands, and no latched notice is lost. -/
def PortGrows (s t : State) : Prop := t.port.mask = s.port.mask ∧ ∀ n, Latched n s → Latched n t

theorem PortGrows.trans {s t u : State} (h : PortGrows s t) (k : PortGrows t u) : PortGrows s u :=
  ⟨k.1.trans h.1, fun n hn => k.2 n (h.2 n hn)⟩

theorem PortGrows.of_port_eq {s t : State} (h : t.port = s.port) : PortGrows s t := by
  simp only [PortGrows, Latched, h, imp_self, implies_true, and_self]

theorem PortGrows.of_touches {fs : List Field} {s t : State} (h : Touches fs s t) (hp : .port ∉ fs := by decide) :
    PortGrows s t := .of_port_eq (h .port hp)

theorem PortGrows.refl (s : State) : PortGrows s s := .of_port_eq rfl

theorem raise_portGrows (n : Notice) (s : State) : PortGrows s (raise n s) := by
  refine ⟨rfl, fun m hm => (and_bit_eq_bit_iff _ m).mpr ?_⟩
  simp [(and_bit_eq_bit_iff _ m).mp hm]

/-- A notice that is raised is latched. -/
theorem latched_raise (n : Notice) (s : State) : Latched n (raise n s) :=
  (and_bit_eq_bit_iff _ n).mpr (by simp [(and_bit_eq_bit_iff n.bit n).mp (BitVec.and_self)])

theorem answer_portGrows (c : Byte) (r : Result) (p : List Byte) (s : State) : PortGrows s (answer c r p s) :=
  ⟨rfl, fun _ h => h⟩

theorem answerInFlight_portGrows (r : Result) (p : List Byte) (s : State) : PortGrows s (answerInFlight r p s) := by
  unfold answerInFlight; split
  · exact .refl s
  · exact answer_portGrows _ _ _ s

theorem countRestart_portGrows (s : State) : PortGrows s (countRestart s) := by
  unfold countRestart; split
  · exact .refl s
  all_goals
    split
    · exact .of_port_eq rfl
    · exact (PortGrows.of_port_eq rfl).trans (answerInFlight_portGrows _ _ _)

theorem basisChangeAt_portGrows (n : Nat) (s : State) : PortGrows s (basisChangeAt n s) := by
  unfold basisChangeAt; split
  · split
    · exact .of_port_eq rfl
    · exact .refl s
  all_goals exact (PortGrows.of_port_eq rfl).trans (countRestart_portGrows _)

/-! ### The engine: the walk stands or begins again (R77, R78) -/

/-- t has a walk from the mass, the temperature and the interval of s. -/
def FreshWalk (s t : State) : Prop :=
  t.proj.state = .stale
    ∧ ∃ w, t.proj.walk = some w ∧ w.base = s.clock.n ∧ w.mass = s.account.mass ∧ w.tdk = s.account.tMeas

/-- From s to t the state of the projection and its walk stand, or a walk begins; while the engine has not both of its sources, nothing
moves. -/
def WalkMoves (s t : State) : Prop :=
  (t.proj.state = s.proj.state ∧ t.proj.walk = s.proj.walk ∨ FreshWalk s t)
    ∧ (s.proj.state = .unavailable → s.clock.running = false → t.proj = s.proj)

theorem WalkMoves.of_proj_eq {s t : State} (h : t.proj = s.proj) : WalkMoves s t := ⟨.inl (by simp [h]), fun _ _ => h⟩

/-- A walk begun in a state with the same mass, temperature and clock is one begun in s. -/
theorem FreshWalk.of_agree {s t u : State} (hm : t.account.mass = s.account.mass)
    (ht : t.account.tMeas = s.account.tMeas) (hc : t.clock = s.clock) (h : FreshWalk t u) : FreshWalk s u := by
  simpa only [FreshWalk, hm, ht, hc] using h

theorem WalkMoves.trans {s t u : State} (hm : t.account.mass = s.account.mass)
    (ht : t.account.tMeas = s.account.tMeas) (hc : t.clock = s.clock) (h : WalkMoves s t) (k : WalkMoves t u) :
    WalkMoves s u := by
  obtain ⟨h1, h2⟩ := h
  obtain ⟨k1, k2⟩ := k
  refine ⟨?_, fun hs hr => ?_⟩
  · rcases k1 with ⟨ks, kw⟩ | k1
    · rcases h1 with ⟨hs, hw⟩ | ⟨hs, w, hw, hfresh⟩
      · exact .inl ⟨ks.trans hs, kw.trans hw⟩
      · exact .inr ⟨ks.trans hs, w, kw.trans hw, hfresh⟩
    · exact .inr (k1.of_agree hm ht hc)
  · have hp := h2 hs hr
    exact (k2 (by rw [hp, hs]) (by rw [hc, hr])).trans hp

theorem answerInFlight_proj (r : Result) (p : List Byte) (s : State) : (answerInFlight r p s).proj = s.proj :=
  (answerInFlight_touches s r p).get .proj

theorem countRestart_walk (s : State) :
    (countRestart s).proj.state = s.proj.state ∧ (countRestart s).proj.walk = s.proj.walk := by
  unfold countRestart; split
  · exact ⟨rfl, rfl⟩
  all_goals
    split
    · exact ⟨rfl, rfl⟩
    · rw [answerInFlight_proj]; exact ⟨rfl, rfl⟩

/-- A basis change leaves a walk on the clock's number where the projection has left UNAVAILABLE. -/
theorem basisChange_freshWalk {s : State} (h : s.proj.state ≠ .unavailable) : FreshWalk s (basisChange s) := by
  have hc : FreshWalk s (countRestart (startWalk s)) := by
    obtain ⟨hs, hw⟩ := countRestart_walk (startWalk s)
    exact ⟨hs, walkInputs s, hw, rfl, rfl, rfl⟩
  unfold basisChange basisChangeAt
  split
  next hs => exact absurd hs h
  all_goals exact hc

/-- With both its sources there, an UNAVAILABLE engine begins a walk too. -/
theorem basisChange_freshWalk_of_sources {s : State} (hb : s.account.basis = .based) (hr : s.clock.running = true) :
    FreshWalk s (basisChange s) := by
  by_cases h : s.proj.state = .unavailable
  · simp only [basisChange, basisChangeAt, h, hb, hr, and_self, if_true]
    exact ⟨rfl, walkInputs s, rfl, rfl, rfl, rfl⟩
  · exact basisChange_freshWalk h

/-- An UNAVAILABLE engine without its sources drops a basis change. -/
theorem basisChange_dropped {s : State} (h : s.proj.state = .unavailable)
    (hn : ¬ (s.account.basis = .based ∧ s.clock.running = true)) : basisChange s = s := by
  simp only [basisChange, basisChangeAt, h, if_neg hn]

theorem basisChange_walkMoves (s : State) : WalkMoves s (basisChange s) := by
  by_cases h : s.proj.state = .unavailable
  · by_cases hb : s.account.basis = .based ∧ s.clock.running = true
    · exact ⟨.inr (basisChange_freshWalk_of_sources hb.1 hb.2), fun _ hr => absurd (hb.2.symm.trans hr) nofun⟩
    · exact .of_proj_eq (by rw [basisChange_dropped h hb])
  · exact ⟨.inr (basisChange_freshWalk h), fun hs => absurd hs h⟩

/-! ### What the operations on trains keep -/

/-- The fields an operation on trains may touch, the dispatcher's requests among them. -/
abbrev quietFields : List Field := [.trains, .heat, .dispatch, .proj, .port]

/-- From s to t: train records, store lists, notices, walks and the dispatcher's choices of trains may move; the heater cycles, the
stores' heat and figures, the mask and the dispatcher's target and meters stand. -/
structure Quiet (s t : State) : Prop where
  touches : Touches quietFields s t
  timers : t.trains.timerA = s.trains.timerA ∧ t.trains.timerB = s.trains.timerB
  content : ∀ i, (t.store i).contentKj = (s.store i).contentKj
  summary : t.heat.summary = s.heat.summary
  port : PortGrows s t
  walk : WalkMoves s t
  figures : ∃ commit need share hold,
    t.dispatch = { s.dispatch with commit := commit, need := need, share := share, hold := hold }

theorem Quiet.refl (s : State) : Quiet s s :=
  ⟨.same _ s, ⟨rfl, rfl⟩, fun _ => rfl, rfl, .refl s, .of_proj_eq rfl, _, _, _, _, rfl⟩

theorem Quiet.trans {s t u : State} (h : Quiet s t) (k : Quiet t u) : Quiet s u where
  touches := h.touches.trans k.touches
  timers := ⟨k.timers.1.trans h.timers.1, k.timers.2.trans h.timers.2⟩
  content i := (k.content i).trans (h.content i)
  summary := k.summary.trans h.summary
  port := h.port.trans k.port
  walk :=
    have ha : t.account = s.account := h.touches.get .account
    h.walk.trans (by rw [ha]) (by rw [ha]) (h.touches.get .clock) k.walk
  figures := by
    obtain ⟨_, _, _, _, hd⟩ := h.figures
    obtain ⟨c, n, sh, ho, kd⟩ := k.figures
    exact ⟨c, n, sh, ho, by rw [kd, hd]⟩

theorem Quiet.foldl {α : Type} (f : State → α → State) (hf : ∀ s a, Quiet s (f s a)) :
    ∀ (l : List α) (s : State), Quiet s (l.foldl f s)
  | [], s => .refl s
  | a :: l, s => (hf s a).trans (Quiet.foldl f hf l (f s a))

/-- A step that leaves the trains, the heat and the dispatcher. -/
theorem Quiet.of_engine {s t : State} (h : Touches [.proj, .port] s t) (hp : PortGrows s t) (hw : WalkMoves s t) :
    Quiet s t where
  touches := h.mono (by decide)
  timers := by rw [show t.trains = s.trains from h.get .trains]; exact ⟨rfl, rfl⟩
  content i := by simp only [State.store]; rw [show t.heat = s.heat from h.get .heat]
  summary := congrArg Heat.summary (h.get .heat)
  port := hp
  walk := hw
  figures := ⟨_, _, _, _, h.get .dispatch⟩

/-- A step that writes train records alone. -/
theorem Quiet.of_trains {s : State} {v : Trains} (h : v.timerA = s.trains.timerA ∧ v.timerB = s.trains.timerB) :
    Quiet s (s.withTrains v) :=
  ⟨(touches_withTrains s v).mono (by decide), h, fun _ => rfl, rfl, .of_port_eq rfl, .of_proj_eq rfl, _, _, _, _, rfl⟩

/-- A step that writes stores alone and moves no heat. -/
theorem Quiet.of_stores {s : State} {v : PerStore Store}
    (h : ∀ i, (v.get i).contentKj = (s.store i).contentKj) : Quiet s (s.withHeat { s.heat with store := v }) :=
  ⟨(touches_withHeat s _).mono (by decide), ⟨rfl, rfl⟩, h, rfl, .of_port_eq rfl, .of_proj_eq rfl, _, _, _, _, rfl⟩

/-- A step that writes the dispatcher's choices of trains alone. -/
theorem Quiet.of_choices (s : State) (commit need : List TrainIx) (share : PerTrain Nat) (hold : PerTrain Bool) :
    Quiet s (s.withDispatch { s.dispatch with commit := commit, need := need, share := share, hold := hold }) :=
  ⟨(touches_withDispatch s _).mono (by decide), ⟨rfl, rfl⟩, fun _ => rfl, rfl, .of_port_eq rfl, .of_proj_eq rfl,
    commit, need, share, hold, rfl⟩

section
variable (s : State)

theorem setTrain_quiet (x : TrainIx) (v : Train) : Quiet s (s.setTrain x v) := .of_trains ⟨rfl, rfl⟩

theorem raise_quiet (n : Notice) : Quiet s (raise n s) :=
  .of_engine ((raise_touches s n).mono (by decide)) (raise_portGrows n s) (.of_proj_eq rfl)

theorem basisChange_quiet : Quiet s (basisChange s) :=
  .of_engine (basisChange_touches s) (basisChangeAt_portGrows _ s) (basisChange_walkMoves s)

theorem releaseStore_quiet (x : TrainIx) : Quiet s (releaseStore x s) := .of_stores fun i => by simp

theorem assignStore_quiet (x : TrainIx) : Quiet s (assignStore x s) := by
  unfold assignStore; split
  · exact .refl s
  · refine .of_stores fun j => ?_
    rw [PerStore.get_set]; split
    · subst j; rfl
    · rfl

/-! ### The train sequencer -/

theorem putTrainCovered_quiet (x : TrainIx) (v : Train) : Quiet s (putTrainCovered x v s) := setTrain_quiet s _ _

theorem putTrain_quiet (x : TrainIx) (v : Train) : Quiet s (putTrain x v s) := by
  unfold putTrain; split
  · exact setTrain_quiet s _ _
  · exact (setTrain_quiet s _ _).trans (basisChange_quiet _)

theorem enterReady_quiet (x : TrainIx) : Quiet s (enterReady x s) := (putTrain_quiet s _ _).trans (raise_quiet _ _)

theorem stopFrom_quiet (x : TrainIx) (v : Train) : Quiet s (stopFrom x v s) :=
  (releaseStore_quiet s x).trans (putTrain_quiet _ _ _)

theorem enterStopping_quiet (x : TrainIx) : Quiet s (enterStopping x s) := stopFrom_quiet s _ _

theorem enterCooldown_quiet (x : TrainIx) : Quiet s (enterCooldown x s) := (putTrain_quiet s _ _).trans (raise_quiet _ _)

theorem enterIdle_quiet (x : TrainIx) : Quiet s (enterIdle x s) := (putTrain_quiet s _ _).trans (raise_quiet _ _)

theorem expire_quiet (x : TrainIx) : Quiet s (expire x s) := by
  unfold expire; split
  · exact enterReady_quiet s x
  · exact enterStopping_quiet s x
  · exact enterCooldown_quiet s x
  · exact enterIdle_quiet s x
  all_goals exact setTrain_quiet s _ _

theorem requestStart_quiet (x : TrainIx) : Quiet s (requestStart x s) := by
  unfold requestStart; dsimp only
  split
  · exact .refl s
  · split
    · split
      · exact .refl s
      · exact (setTrain_quiet s _ _).trans (raise_quiet _ _)
    · exact putTrain_quiet s _ _

theorem requestLoad_quiet (x : TrainIx) : Quiet s (requestLoad x s) := by
  unfold requestLoad; split
  · exact ((putTrain_quiet s x _).trans (assignStore_quiet _ x)).trans (raise_quiet _ _)
  · exact .refl s

theorem requestSetpoint_quiet (x : TrainIx) (kw : Nat) : Quiet s (requestSetpoint x kw s) := by
  unfold requestSetpoint; dsimp only
  split
  · exact .refl s
  · exact setTrain_quiet s _ _

theorem requestUnload_quiet (x : TrainIx) : Quiet s (requestUnload x s) := by
  unfold requestUnload; split
  · exact ((releaseStore_quiet s x).trans (putTrain_quiet _ _ _)).trans (raise_quiet _ _)
  · exact .refl s

theorem requestStop_quiet (x : TrainIx) : Quiet s (requestStop x s) := by
  unfold requestStop; split
  · exact enterStopping_quiet s x
  · exact .refl s

theorem safeStop_quiet (x : TrainIx) : Quiet s (safeStop x s) := by
  unfold safeStop; split
  · exact enterStopping_quiet s x
  · exact .refl s

theorem excursionStop_quiet (x : TrainIx) : Quiet s (excursionStop x s) := by
  unfold excursionStop; split
  · exact stopFrom_quiet s _ _
  · exact .refl s

theorem eachTrain_quiet (f : TrainIx → State → State) (hf : ∀ x u, Quiet u (f x u)) (xs : List TrainIx) :
    Quiet s (eachTrain f xs s) := Quiet.foldl _ (fun u x => hf x u) xs s

theorem excursionChanged_quiet (side : Side) (e : Excursion) : Quiet s (excursionChanged side e s) := by
  unfold excursionChanged; split
  · exact eachTrain_quiet s _ (fun x u => excursionStop_quiet u x) _
  · exact .refl s
  · exact eachTrain_quiet s _ (fun x u => setTrain_quiet u x _) _

theorem countTrip_quiet (x : TrainIx) : Quiet s (countTrip x s) :=
  (((releaseStore_quiet s x).trans (putTrainCovered_quiet _ _ _)).trans (raise_quiet _ _)).trans (basisChange_quiet _)

theorem tripAssert_quiet (x : TrainIx) : Quiet s (tripAssert x s) := by
  unfold tripAssert; dsimp only
  split
  · exact .refl s
  · split
    · exact setTrain_quiet s _ _
    · exact setTrain_quiet s _ _
    all_goals exact (setTrain_quiet s _ _).trans (countTrip_quiet _ x)

theorem countTimer_quiet (x : TrainIx) : Quiet s (countTimer x s) := by
  unfold countTimer; dsimp only
  split
  · exact .refl s
  · split
    · exact expire_quiet s x
    · exact setTrain_quiet s _ _

theorem trainSecond_quiet (x : TrainIx) : Quiet s (trainSecond x s) := (countTimer_quiet s x).trans (putTrain_quiet _ _ _)

/-! ### The dispatcher's steps 2 to 7 (R138 to R143) -/

theorem formCommit_quiet : Quiet s (formCommit s) := .of_choices s _ _ _ _

theorem setHold_quiet (x : TrainIx) (b : Bool) : Quiet s (setHold x b s) := .of_choices s _ _ _ _

theorem clearHolds_quiet : Quiet s (clearHolds s) := .of_choices s _ _ _ _

theorem stopOrUnload_quiet (x : TrainIx) : Quiet s (stopOrUnload x s) := by
  unfold stopOrUnload; dsimp only
  split
  · exact requestStop_quiet s x
  · have h := (requestStop_quiet s x).trans (requestUnload_quiet _ x)
    split
    · exact h.trans (setHold_quiet _ _ _)
    · exact h

theorem releaseTrain_quiet (x : TrainIx) : Quiet s (releaseTrain x s) := by
  unfold releaseTrain; dsimp only
  split
  · split
    · exact .refl s
    · exact stopOrUnload_quiet s x
  · split
    · exact .refl s
    · exact requestStop_quiet s x
  all_goals exact .refl s

theorem releaseUnwanted_quiet : Quiet s (releaseUnwanted s) :=
  (eachTrain_quiet s _ (fun x u => releaseTrain_quiet u x) _).trans (clearHolds_quiet _)

theorem startOrLoad_quiet (x : TrainIx) : Quiet s (startOrLoad x s) := by
  unfold startOrLoad; split
  · split
    · exact requestStart_quiet s x
    · exact .refl s
  · split
    · exact requestLoad_quiet s x
    · exact .refl s
  all_goals exact .refl s

theorem startAhead_quiet (left : Int) (x : TrainIx) : Quiet s (startAhead left x s) := by
  unfold startAhead; split
  · exact requestStart_quiet s x
  · exact .refl s

theorem aheadOfRows_quiet : ∀ (rs : List Row) (x : State × List TrainIx), Quiet x.1 (rs.foldl aheadOfRow x).1
  | [], x => .refl x.1
  | r :: rs, x =>
    (eachTrain_quiet x.1 _ (fun y u => startAhead_quiet u _ y) _ : Quiet x.1 (aheadOfRow x r).1).trans
      (aheadOfRows_quiet rs (aheadOfRow x r))

theorem lookAhead_quiet : Quiet s (lookAhead s) := by
  unfold lookAhead; split
  · exact (aheadOfRows_quiet (rowsAhead s) (s, [])).trans (.of_choices _ _ _ _ _)
  · exact .of_choices s _ _ _ _

theorem computeShares_quiet (xs : List TrainIx) : Quiet s (computeShares xs s) := .of_choices s _ _ _ _

theorem rampTrain_quiet (x : TrainIx) : Quiet s (rampTrain x s) := by
  unfold rampTrain; split
  · exact requestSetpoint_quiet s _ _
  · exact .refl s

/-- R138 to R143: the dispatcher's response between its target and its metering. -/
def dispatchTrains (s : State) : State :=
  let formed := formCommit s
  let released := releaseUnwanted formed
  let loaded := eachTrain startOrLoad released.dispatch.commit released
  let shared := computeShares (runningMembers formed) (lookAhead loaded)
  eachTrain rampTrain TrainIx.all shared

/-- R135: the dispatcher forms its target, acts on the trains, and meters the second. -/
theorem dispatchSecond_eq : dispatchSecond s = meterSecond (dispatchTrains (formTarget s)) := rfl

theorem dispatchTrains_quiet : Quiet s (dispatchTrains s) :=
  (((((formCommit_quiet s).trans (releaseUnwanted_quiet _)).trans
    (eachTrain_quiet _ _ (fun x u => startOrLoad_quiet u x) _)).trans (lookAhead_quiet _)).trans
    (computeShares_quiet _ _)).trans (eachTrain_quiet _ _ (fun x u => rampTrain_quiet u x) _)

end

end Sys2Proof.Machine
end

section
/-! SUPPORT. A train record through a transition (R108, R119), the stops and clears of an excursion side (R116, R21 to R23), and the
steps of POST_READING (R4 to R6, R10). -/

namespace Sys2Proof.Machine

set_option Elab.async false

/-! ### A basis change beside the records (R77, R78, R94) -/

section
variable (s : State)

@[simp] theorem withAccount_train (a : Account) (x : TrainIx) : (s.withAccount a).train x = s.train x := rfl
@[simp] theorem withAccount_store (a : Account) (i : StoreIx) : (s.withAccount a).store i = s.store i := rfl
@[simp] theorem withAccount_paramsOf (a : Account) (x : TrainIx) : paramsOf (s.withAccount a) x = paramsOf s x := rfl

@[simp] theorem basisChange_train (x : TrainIx) : (basisChange s).train x = s.train x :=
  congrArg (fun v : Trains => v.train.get x) ((basisChange_touches s).get .trains)
@[simp] theorem basisChange_heat : (basisChange s).heat = s.heat := (basisChange_touches s).get .heat
@[simp] theorem basisChange_account : (basisChange s).account = s.account := (basisChange_touches s).get .account
@[simp] theorem basisChange_limits : (basisChange s).limits = s.limits := (basisChange_touches s).get .limits

/-- With no request in flight a basis change places no reply. -/
theorem basisChange_port (h : s.port.inFlight = none) : (basisChange s).port = s.port := by
  have hnone : ∀ r p, ∀ u : State, u.port = s.port → (answerInFlight r p u).port = s.port := by
    intro r p u hu
    simp [answerInFlight, hu, h]
  unfold basisChange basisChangeAt; split
  · split <;> rfl
  all_goals
    unfold countRestart; split
    · rfl
    all_goals
      split
      · rfl
      · exact hnone _ _ _ rfl

/-! ### A record written (R119) -/

theorem putTrain_train (x y : TrainIx) (v : Train) :
    (putTrain x v s).train y = if y = x then classed s.limits x v else s.train y := by
  unfold putTrain; split <;> simp

theorem putTrain_heat (x : TrainIx) (v : Train) : (putTrain x v s).heat = s.heat := (putTrain_touches s x v).get .heat

theorem putTrain_port (x : TrainIx) (v : Train) (h : s.port.inFlight = none) : (putTrain x v s).port = s.port := by
  unfold putTrain; split
  · rfl
  · exact basisChange_port _ h

/-! ### A train that is stopped by an excursion (R108, R116) -/

/-- R108, R116: a train's record after a stop by an excursion. -/
def stopRecord (p : TrainParams) (x : TrainIx) (v : Train) : Train :=
  { v with
    state := .stopping, stateTimer := p.stopTime, setpoint := 0, downSince := 0, startClass := .hot
    warm := decide (x.side = .discharge ∧ v.heater ≠ Heater.off), excursionStopped := true }

@[simp] theorem stopRecord_notStoppable (p : TrainParams) (x : TrainIx) (v : Train) :
    (stopRecord p x v).state.stoppable = false := rfl

theorem excursionStop_stands {x : TrainIx} (h : (s.train x).state.stoppable = false) : excursionStop x s = s :=
  if_neg (by simp [h])

/-- R116: the stop of a train is one record written, on the state in which it has left its store. -/
theorem excursionStop_eq {x : TrainIx} (h : (s.train x).state.stoppable = true) : ∃ v,
    excursionStop x s = putTrain x v (releaseStore x s) ∧ classed s.limits x v = stopRecord (paramsOf s x) x (s.train x)
      ∧ judgedClass s.limits x v = .hot := by
  refine ⟨_, if_pos h, ?_, rfl⟩
  simp [classed, judgedClass, stopRecord]

theorem excursionStop_train (x y : TrainIx) : (excursionStop x s).train y =
    if y = x ∧ (s.train y).state.stoppable then stopRecord (paramsOf s y) y (s.train y) else s.train y := by
  by_cases h : (s.train x).state.stoppable = true
  · obtain ⟨v, hv, hc, -⟩ := excursionStop_eq s h
    rw [hv, putTrain_train]
    by_cases hy : y = x
    · subst hy; rw [if_pos rfl, if_pos ⟨rfl, h⟩]; exact hc
    · simp [hy]
  · rw [excursionStop_stands s (by simpa using h), if_neg]
    rintro ⟨rfl, hy⟩
    exact h hy

theorem excursionStop_store (x : TrainIx) (i : StoreIx) : (excursionStop x s).store i =
    { s.store i with trains := (s.store i).trains.filter fun y => !(decide (y = x) && (s.train y).state.stoppable) } := by
  by_cases h : (s.train x).state.stoppable = true
  · obtain ⟨v, hv, -, -⟩ := excursionStop_eq s h
    have hfilter : (fun y => decide (y ≠ x)) = fun y => !(decide (y = x) && (s.train y).state.stoppable) := by
      funext y
      by_cases hy : y = x
      · subst hy; simp [h]
      · simp [hy]
    rw [hv, State.store, putTrain_heat, ← hfilter]
    exact releaseStore_store s x i
  · have hall : ∀ y ∈ (s.store i).trains, (!(decide (y = x) && (s.train y).state.stoppable)) = true := by
      intro y _
      by_cases hy : y = x
      · subst hy; simpa using h
      · simp [hy]
    rw [excursionStop_stands s (by simpa using h), List.filter_eq_self.mpr hall]

theorem excursionStop_port (x : TrainIx) (h : s.port.inFlight = none) : (excursionStop x s).port = s.port := by
  unfold excursionStop; split
  · exact putTrain_port _ _ _ h
  · rfl

/-- R119: the stop of a HOT train changes no class. -/
theorem excursionStop_proj {x : TrainIx} (h : (s.train x).state.stoppable = true → (s.train x).startClass = .hot) :
    (excursionStop x s).proj = s.proj := by
  by_cases hs : (s.train x).state.stoppable = true
  · obtain ⟨v, hv, -, hc⟩ := excursionStop_eq s hs
    rw [hv, putTrain_classStands]
    · rfl
    · exact hc.trans (h hs).symm
  · rw [excursionStop_stands s (by simpa using hs)]

end

/-! ### The trains of a side, one after another (R116) -/

theorem eachTrain_cons (f : TrainIx → State → State) (x : TrainIx) (xs : List TrainIx) (s : State) :
    eachTrain f (x :: xs) s = eachTrain f xs (f x s) := rfl

theorem paramsOf_of_touches {fs : List Field} {s t : State} (h : Touches fs s t) (x : TrainIx)
    (hl : .limits ∉ fs := by decide) : paramsOf t x = paramsOf s x :=
  congrArg (fun l : Limits => l.train.get x) (h .limits hl)

theorem eachTrain_excursionStop_train (xs : List TrainIx) (s : State) (y : TrainIx) :
    (eachTrain excursionStop xs s).train y =
      if y ∈ xs ∧ (s.train y).state.stoppable then stopRecord (paramsOf s y) y (s.train y) else s.train y := by
  induction xs generalizing s with
  | nil => simp [eachTrain]
  | cons x xs ih =>
    rw [eachTrain_cons, ih, excursionStop_train, paramsOf_of_touches (excursionStop_touches s x)]
    by_cases hs : (s.train y).state.stoppable = true
    · by_cases hy : y = x
      · subst hy; simp [hs]
      · simp [hs, hy]
    · simp [hs]

theorem eachTrain_excursionStop_store (xs : List TrainIx) (s : State) (i : StoreIx) :
    (eachTrain excursionStop xs s).store i =
      { s.store i with
        trains := (s.store i).trains.filter fun y => !(decide (y ∈ xs) && (s.train y).state.stoppable) } := by
  induction xs generalizing s with
  | nil => simp [eachTrain]
  | cons x xs ih =>
    rw [eachTrain_cons, ih, excursionStop_store]
    simp only [List.filter_filter, excursionStop_train]
    congr 2
    funext y
    by_cases hy : y = x
    · subst hy
      by_cases hs : (s.train y).state.stoppable = true <;> simp [hs]
    · simp [hy]

theorem eachTrain_excursionStop_port (xs : List TrainIx) (s : State) (h : s.port.inFlight = none) :
    (eachTrain excursionStop xs s).port = s.port := by
  induction xs generalizing s with
  | nil => rfl
  | cons x xs ih =>
    have hx := excursionStop_port s x h
    rw [eachTrain_cons, ih _ (by rw [hx, h]), hx]

theorem eachTrain_excursionStop_proj (xs : List TrainIx) (s : State)
    (h : ∀ x ∈ xs, (s.train x).state.stoppable = true → (s.train x).startClass = .hot) :
    (eachTrain excursionStop xs s).proj = s.proj := by
  induction xs generalizing s with
  | nil => rfl
  | cons x xs ih =>
    rw [eachTrain_cons, ih, excursionStop_proj s (h x (List.mem_cons_self ..))]
    intro y hy hs
    rw [excursionStop_train] at hs ⊢
    split
    · rfl
    next hn =>
      rw [if_neg hn] at hs
      exact h y (List.mem_cons_of_mem _ hy) hs

/-! ### A side judged (R21 to R23, R116) -/

/-- R116: a train is stopped where its side becomes ACTIVE while it may be stopped. -/
def stopsFor (old new : Excursion) (v : Train) : Bool :=
  decide (new = .active) && decide (old ≠ .active) && v.state.stoppable

/-- R116: a train's record after its side has gone from old to new. -/
def sideChange (old new : Excursion) (p : TrainParams) (x : TrainIx) (v : Train) : Train :=
  if stopsFor old new v then stopRecord p x v
  else if new = .clear ∧ old ≠ .clear then { v with excursionStopped := false }
  else v

theorem sideChange_same (e : Excursion) (p : TrainParams) (x : TrainIx) (v : Train) : sideChange e e p x v = v := by
  simp [sideChange, stopsFor]

theorem stopsFor_same (e : Excursion) (v : Train) : stopsFor e e v = false := by simp [stopsFor]

theorem Account.setSide_same (a : Account) (side : Side) : a.setSide side (excursionOf a side) = a := by cases side <;> rfl

section
variable (side : Side) (e : Excursion) (s : State)

/-- R23: the side's new state is kept, and what follows of a change is the sequencer's. -/
theorem setExcursion_quiet : Quiet (s.withAccount (s.account.setSide side e)) (setExcursion side e s) := by
  by_cases h : e = excursionOf s.account side
  · rw [setExcursion_stands h, h, Account.setSide_same]
    exact .refl s
  · rw [setExcursion_changes h]
    exact excursionChanged_quiet _ _ _

theorem setExcursion_account : (setExcursion side e s).account = s.account.setSide side e :=
  (setExcursion_quiet side e s).touches.get .account

theorem setExcursion_train (x : TrainIx) : (setExcursion side e s).train x =
    if x.side = side then sideChange (excursionOf s.account side) e (paramsOf s x) x (s.train x) else s.train x := by
  by_cases h : e = excursionOf s.account side
  · rw [setExcursion_stands h, h, sideChange_same, ite_self]
  · rw [setExcursion_changes h]
    cases e with
    | active =>
      rw [excursionChanged, eachTrain_excursionStop_train]
      by_cases hx : x.side = side <;> simp [hx, sideChange, stopsFor, Ne.symm h]
    | held => simp [excursionChanged, sideChange, stopsFor]
    | clear =>
      rw [excursionChanged, eachTrain_clearExcursionStopped_train]
      by_cases hx : x.side = side <;> simp [hx, sideChange, stopsFor, Ne.symm h]

theorem setExcursion_store (i : StoreIx) : (setExcursion side e s).store i =
    { s.store i with
      trains := (s.store i).trains.filter fun x =>
        !(decide (x.side = side) && stopsFor (excursionOf s.account side) e (s.train x)) } := by
  by_cases h : e = excursionOf s.account side
  · subst h
    rw [setExcursion_stands rfl]
    simp [stopsFor_same]
  · rw [setExcursion_changes h]
    cases e with
    | active =>
      rw [excursionChanged, eachTrain_excursionStop_store]
      simp [stopsFor, Ne.symm h]
    | held => simp [excursionChanged, stopsFor]
    | clear =>
      rw [excursionChanged, State.store, (eachTrain_clearExcursionStopped_touches _ _).get .heat]
      simp [stopsFor]; rfl

theorem setExcursion_port (h : s.port.inFlight = none) : (setExcursion side e s).port = s.port := by
  by_cases he : e = excursionOf s.account side
  · rw [setExcursion_stands he]
  · rw [setExcursion_changes he]
    cases e with
    | active => exact eachTrain_excursionStop_port _ _ h
    | held => rfl
    | clear => exact (eachTrain_clearExcursionStopped_touches _ _).get .port

/-- R119: where every train that a side stops is HOT, no class changes, and the projection stands. -/
theorem setExcursion_proj
    (h : ∀ x : TrainIx, x.side = side → stopsFor (excursionOf s.account side) e (s.train x) = true →
      (s.train x).startClass = .hot) : (setExcursion side e s).proj = s.proj := by
  by_cases he : e = excursionOf s.account side
  · rw [setExcursion_stands he]
  · rw [setExcursion_changes he]
    cases e with
    | active =>
      refine eachTrain_excursionStop_proj _ _ fun x hx hs => h x ((Side.mem_trains x side).mp hx) ?_
      simpa [stopsFor, Ne.symm he] using hs
    | held => rfl
    | clear => exact (eachTrain_clearExcursionStopped_touches _ _).get .proj

end

/-! ### Both sides judged (R4 step 6) -/

section
variable (s : State)

/-- R21, R22: what a side's state becomes on the stored pressure. -/
def judgedSide (l : Limits) (a : Account) : Side → Excursion
  | .charge => highSide l a.pMeas a.excHi
  | .discharge => lowSide l a.pMeas a.excLo

theorem judgeExcursions_eq : judgeExcursions s =
    setExcursion .discharge (judgedSide s.limits s.account .discharge)
      (setExcursion .charge (judgedSide s.limits s.account .charge) s) := by
  unfold judgeExcursions
  simp only [setExcursion_account]
  rfl

theorem judgeExcursions_account : (judgeExcursions s).account =
    { s.account with
      excHi := judgedSide s.limits s.account .charge, excLo := judgedSide s.limits s.account .discharge } := by
  rw [judgeExcursions_eq, setExcursion_account, setExcursion_account]
  rfl

/-- R4: a side's judgement moves a walk as a change of class does, from the account's mass and temperature. -/
theorem setExcursion_walkMoves (side : Side) (e : Excursion) : WalkMoves s (setExcursion side e s) := by
  have h := (setExcursion_quiet side e s).walk
  cases side <;> exact h

theorem judgeExcursions_walkMoves : WalkMoves s (judgeExcursions s) := by
  rw [judgeExcursions_eq]
  refine (setExcursion_walkMoves s .charge _).trans ?_ ?_ ((setExcursion_touches s .charge _).get .clock)
    (setExcursion_walkMoves _ .discharge _) <;> rw [setExcursion_account] <;> rfl

theorem judgeExcursions_timers : (judgeExcursions s).trains.timerA = s.trains.timerA
    ∧ (judgeExcursions s).trains.timerB = s.trains.timerB := by
  rw [judgeExcursions_eq]
  obtain ⟨ha, hb⟩ := (setExcursion_quiet .charge (judgedSide s.limits s.account .charge) s).timers
  obtain ⟨ka, kb⟩ := (setExcursion_quiet .discharge (judgedSide s.limits s.account .discharge)
    (setExcursion .charge (judgedSide s.limits s.account .charge) s)).timers
  exact ⟨ka.trans ha, kb.trans hb⟩

theorem judgeExcursions_summary : (judgeExcursions s).heat.summary = s.heat.summary := by
  rw [judgeExcursions_eq]
  exact (setExcursion_quiet .discharge _ _).summary.trans (setExcursion_quiet .charge _ _).summary

/-- R116: what becomes of a train's side. -/
abbrev sideNow (x : TrainIx) : Excursion := judgedSide s.limits s.account x.side
abbrev sideBefore (x : TrainIx) : Excursion := excursionOf s.account x.side

theorem judgeExcursions_train (x : TrainIx) : (judgeExcursions s).train x =
    sideChange (sideBefore s x) (sideNow s x) (paramsOf s x) x (s.train x) := by
  rw [judgeExcursions_eq, setExcursion_train, setExcursion_account, paramsOf_of_touches (setExcursion_touches s _ _),
    setExcursion_train]
  cases hx : x.side <;> simp [sideNow, sideBefore, hx]

theorem judgeExcursions_store (i : StoreIx) : (judgeExcursions s).store i =
    { s.store i with
      trains := (s.store i).trains.filter fun x => !stopsFor (sideBefore s x) (sideNow s x) (s.train x) } := by
  rw [judgeExcursions_eq, setExcursion_store, setExcursion_store, setExcursion_account]
  simp only [List.filter_filter, setExcursion_train]
  congr 2
  funext x
  cases hx : x.side <;> simp [sideNow, sideBefore, hx]

theorem judgeExcursions_port (h : s.port.inFlight = none) : (judgeExcursions s).port = s.port := by
  have hc := setExcursion_port .charge (judgedSide s.limits s.account .charge) s h
  rw [judgeExcursions_eq, setExcursion_port _ _ _ (by rw [hc, h]), hc]

theorem judgeExcursions_proj
    (h : ∀ x, stopsFor (sideBefore s x) (sideNow s x) (s.train x) = true → (s.train x).startClass = .hot) :
    (judgeExcursions s).proj = s.proj := by
  rw [judgeExcursions_eq, setExcursion_proj, setExcursion_proj]
  · intro x hx hs
    exact h x (by simpa [sideNow, sideBefore, hx] using hs)
  · intro x hx hs
    rw [setExcursion_train, setExcursion_account] at hs
    rw [setExcursion_train]
    simp [hx] at hs ⊢
    exact h x (by simpa [sideNow, sideBefore, hx] using hs)

end

/-! ### A reading taken (R4 to R6, R10, R177) -/

/-- An account that is BASED on a mass, with its pressure and its accumulators. -/
def Account.onMass (a : Account) (m p c e : Nat) : Account :=
  { a with basis := .based, mass := m, pCalc := p, eC := c, eE := e }

/-- R10: the account after a reading was stored: an UNBASED one is based on it. -/
def Account.basedBy (a : Account) (l : Limits) : Account :=
  match a.basis with
  | .based => a
  | .unbased =>
    a.onMass (massFromPressure l a.pMeas a.tMeas)
      (pressureFromMass l (massFromPressure l a.pMeas a.tMeas) a.tMeas) 0 0

section
variable (a : Account) (l : Limits)

theorem Account.basedBy_based (h : a.basis = .based) : a.basedBy l = a := by simp only [basedBy, h]

theorem Account.basedBy_unbased (h : a.basis = .unbased) : a.basedBy l =
    a.onMass (massFromPressure l a.pMeas a.tMeas)
      (pressureFromMass l (massFromPressure l a.pMeas a.tMeas) a.tMeas) 0 0 := by simp only [basedBy, h]

/-- R10: whatever the mass, basing writes five fields. -/
theorem Account.exists_basedBy : ∃ m p c e, a.basedBy l = a.onMass m p c e := by
  cases h : a.basis
  · exact ⟨_, _, _, _, a.basedBy_unbased l h⟩
  · refine ⟨a.mass, a.pCalc, a.eC, a.eE, ?_⟩
    rw [a.basedBy_based l h, onMass, ← h]

/-- R10: a field that onMass does not write stands. -/
theorem Account.basedBy_reads {β : Type} (field : Account → β)
    (h : ∀ m p c e, field (a.onMass m p c e) = field a) : field (a.basedBy l) = field a := by
  obtain ⟨m, p, c, e, hb⟩ := a.exists_basedBy l
  rw [hb, h]

@[simp] theorem Account.basedBy_basis : (a.basedBy l).basis = .based := by
  obtain ⟨m, p, c, e, hb⟩ := a.exists_basedBy l
  rw [hb]; rfl
@[simp] theorem Account.basedBy_pMeas : (a.basedBy l).pMeas = a.pMeas := a.basedBy_reads l _ fun _ _ _ _ => rfl
@[simp] theorem Account.basedBy_tMeas : (a.basedBy l).tMeas = a.tMeas := a.basedBy_reads l _ fun _ _ _ _ => rfl
@[simp] theorem Account.basedBy_power : (a.basedBy l).power = a.power := a.basedBy_reads l _ fun _ _ _ _ => rfl
@[simp] theorem Account.basedBy_readingAge : (a.basedBy l).readingAge = a.readingAge :=
  a.basedBy_reads l _ fun _ _ _ _ => rfl
@[simp] theorem Account.basedBy_readingSeen : (a.basedBy l).readingSeen = a.readingSeen :=
  a.basedBy_reads l _ fun _ _ _ _ => rfl
@[simp] theorem Account.basedBy_stale : (a.basedBy l).stale = a.stale := a.basedBy_reads l _ fun _ _ _ _ => rfl
@[simp] theorem Account.basedBy_clamped : (a.basedBy l).clamped = a.clamped := a.basedBy_reads l _ fun _ _ _ _ => rfl
@[simp] theorem Account.basedBy_lastClose : (a.basedBy l).lastClose = a.lastClose :=
  a.basedBy_reads l _ fun _ _ _ _ => rfl
@[simp] theorem Account.basedBy_excursionOf (d : Side) : excursionOf (a.basedBy l) d = excursionOf a d :=
  a.basedBy_reads l (excursionOf · d) fun _ _ _ _ => by cases d <;> rfl

@[simp] theorem judgedSide_basedBy (d : Side) : judgedSide l (a.basedBy l) d = judgedSide l a d := by
  have h := Account.basedBy_excursionOf a l d
  cases d <;> simp only [judgedSide, Account.basedBy_pMeas] <;> exact congrArg _ h

end

section
variable (s : State)

theorem baseAccount_based (h : s.account.basis = .based) : baseAccount s = s := by simp only [baseAccount, h]

/-- R10: the mass from the reading, with basis and accumulators set. -/
theorem Account.massFromReading_onMass {a : Account} {l : Limits} {m p : Nat}
    (h : a.massFromReading l = { a with mass := m, pCalc := p }) :
    { a.massFromReading l with eC := 0, eE := 0, basis := .based } = a.onMass m p 0 0 := by
  rw [h]; rfl

theorem baseAccount_unbased (h : s.account.basis = .unbased) :
    baseAccount s = basisChange (s.withAccount (s.account.basedBy s.limits)) := by
  rw [Account.basedBy_unbased _ _ h, ← Account.massFromReading_onMass rfl]
  simp only [baseAccount, h]

theorem baseAccount_account : (baseAccount s).account = s.account.basedBy s.limits := by
  cases h : s.account.basis
  · rw [baseAccount_unbased s h, basisChange_account]; rfl
  · rw [baseAccount_based s h, Account.basedBy_based _ _ h]

theorem baseAccount_port (h : s.port.inFlight = none) : (baseAccount s).port = s.port := by
  unfold baseAccount; split
  · rfl
  · exact basisChange_port _ h

/-- R10: basing begins a walk from the new mass, where the engine is available or the clock runs. -/
theorem baseAccount_freshWalk (h : s.account.basis = .unbased)
    (hw : s.proj.state ≠ .unavailable ∨ s.clock.running = true) : FreshWalk (baseAccount s) (baseAccount s) := by
  have hfresh : FreshWalk (s.withAccount (s.account.basedBy s.limits)) (baseAccount s) := by
    rw [baseAccount_unbased s h]
    rcases hw with hw | hw
    · exact basisChange_freshWalk hw
    · exact basisChange_freshWalk_of_sources (Account.basedBy_basis _ _) hw
  have ha : (s.withAccount (s.account.basedBy s.limits)).account = (baseAccount s).account := (baseAccount_account s).symm
  exact hfresh.of_agree (congrArg Account.mass ha) (congrArg Account.tMeas ha) ((baseAccount_touches s).get .clock).symm

theorem baseAccount_dormant (hp : s.proj.state = .unavailable) (hr : s.clock.running = false) :
    (baseAccount s).proj = s.proj := by
  cases h : s.account.basis
  · rw [baseAccount_unbased s h, basisChange_dropped (s := s.withAccount (s.account.basedBy s.limits)) hp fun hs => absurd (hs.2.symm.trans hr) nofun]; rfl
  · rw [baseAccount_based s h]

theorem refreshReading_supervision : (refreshReading s).supervision =
    if s.supervision.reading = true ∧ s.supervision.window = false then
      { s.supervision with remaining := s.supervision.timeout } else s.supervision := by
  unfold refreshReading reloadTimer
  split <;> simp_all

/-- R177: a timer that two sources reload in turn is one that either reloads. -/
theorem reloads_twice (v : Supervision) :
    (let u := if v.anyRequest = true ∧ v.window = false then { v with remaining := v.timeout } else v
     if u.reading = true ∧ u.window = false then { u with remaining := u.timeout } else u) =
      if (v.reading = true ∨ v.anyRequest = true) ∧ v.window = false then { v with remaining := v.timeout } else v := by
  obtain ⟨_, window, anyRequest, reading, _, _, _⟩ := v
  cases window <;> cases anyRequest <;> cases reading <;> rfl

theorem accepted_supervision : s.accepted.supervision =
    if s.supervision.anyRequest = true ∧ s.supervision.window = false then
      { s.supervision with remaining := s.supervision.timeout } else s.supervision := by
  unfold State.accepted refreshAny reloadTimer
  split <;> simp_all [acceptFrame]

end

/-- R6: CLAMPED is set exactly if a value was clamped. -/
theorem storeReading_clamped (r : ReadingArgs) (a : Account) : (storeReading r a).clamped = true ↔
    (clampInt 0 20000 r.pressure.toInt : Int) ≠ r.pressure.toInt
      ∨ (clampInt 2500 3500 r.temperature.toInt : Int) ≠ r.temperature.toInt
      ∨ ∃ x, (clampInt 0 200000 (r.powers.get x).toInt : Int) ≠ (r.powers.get x).toInt := by
  have hpowers : ((r.powers.map fun x => clampInt 0 200000 x.toInt).map Int.ofNat ≠ r.powers.map BitVec.toInt) ↔
      ∃ x, (clampInt 0 200000 (r.powers.get x).toInt : Int) ≠ (r.powers.get x).toInt := by
    rw [← not_forall, not_iff_not]
    refine ⟨fun h x => ?_, fun h => PerTrain.ext_get fun x => ?_⟩
    · simpa using congrArg (fun v : PerTrain Int => v.get x) h
    · simpa using h x
  rw [← hpowers]
  simp only [storeReading, Bool.or_eq_true, decide_eq_true_eq, or_assoc]

/-- A walk that runs stays, or begins again. -/
theorem FreshWalk.moves {s t : State} (h : FreshWalk s s) (hm : WalkMoves s t) : FreshWalk s t := by
  obtain ⟨hs, w, hw, hfresh⟩ := h
  rcases hm.1 with ⟨ks, kw⟩ | k
  · exact ⟨ks.trans hs, w, kw.trans hw, hfresh⟩
  · exact k

/-! ### POST_READING as its owner takes it (R4) -/

/-- A stored reading leaves basis, mass, accumulators, excursions and the last close. -/
theorem storeReading_stands (r : ReadingArgs) (a : Account) :
    (storeReading r a).basis = a.basis ∧ (storeReading r a).mass = a.mass ∧ (storeReading r a).pCalc = a.pCalc
      ∧ (storeReading r a).eC = a.eC ∧ (storeReading r a).eE = a.eE ∧ (storeReading r a).lastClose = a.lastClose :=
  ⟨rfl, rfl, rfl, rfl, rfl, rfl⟩

/-- R4 steps 1 to 5: the reading is stored and an UNBASED account based on it. -/
def readingTaken (r : ReadingArgs) (s : State) : State := baseAccount (s.withAccount (storeReading r s.account))

section
variable (r : ReadingArgs) (s : State)

theorem ownPostReading_eq : ownPostReading r s =
    answer 0x10 .ok (setpointBytes (judgeExcursions (readingTaken r s)))
      (refreshReading (judgeExcursions (readingTaken r s))) := rfl

theorem readingTaken_account : (readingTaken r s).account = (storeReading r s.account).basedBy s.limits :=
  baseAccount_account _

theorem readingTaken_touches : Touches [.account, .proj, .port] s (readingTaken r s) :=
  (touches_withAccount s _).comp (baseAccount_touches _)

theorem readingTaken_port (h : s.port.inFlight = none) : (readingTaken r s).port = s.port := baseAccount_port _ h

@[simp] theorem readingTaken_limits : (readingTaken r s).limits = s.limits := (readingTaken_touches r s).get .limits

@[simp] theorem readingTaken_train (x : TrainIx) : (readingTaken r s).train x = s.train x :=
  congrArg (fun v : Trains => v.train.get x) ((readingTaken_touches r s).get .trains)

@[simp] theorem readingTaken_store (i : StoreIx) : (readingTaken r s).store i = s.store i :=
  congrArg (fun v : Heat => v.store.get i) ((readingTaken_touches r s).get .heat)

/-- R21, R22: the sides are judged on the stored pressure. -/
theorem judgedSide_readingTaken (d : Side) : judgedSide (readingTaken r s).limits (readingTaken r s).account d =
    judgedSide s.limits (storeReading r s.account) d := by
  rw [readingTaken_account, readingTaken_limits, judgedSide_basedBy]

theorem sideBefore_readingTaken (x : TrainIx) : sideBefore (readingTaken r s) x = excursionOf s.account x.side := by
  rw [sideBefore, readingTaken_account, Account.basedBy_excursionOf]
  cases x.side <;> rfl

/-- R4 step 6: the state in which the reply is placed. -/
def readingJudged : State := judgeExcursions (readingTaken r s)

theorem ownPostReading_frame : Touches [.supervision, .port] (readingJudged r s) (ownPostReading r s) :=
  (refreshReading_touches _).comp (answer_touches _ _ _ _)

theorem ownPostReading_account : (ownPostReading r s).account =
    { (storeReading r s.account).basedBy s.limits with
      excHi := judgedSide s.limits (storeReading r s.account) .charge
      excLo := judgedSide s.limits (storeReading r s.account) .discharge } := by
  rw [show (ownPostReading r s).account = (readingJudged r s).account from (ownPostReading_frame r s).get .account,
    readingJudged, judgeExcursions_account, judgedSide_readingTaken, judgedSide_readingTaken, readingTaken_account]

theorem ownPostReading_trains : (ownPostReading r s).trains = (readingJudged r s).trains :=
  (ownPostReading_frame r s).get .trains

theorem ownPostReading_train (x : TrainIx) : (ownPostReading r s).train x =
    sideChange (excursionOf s.account x.side) (judgedSide s.limits (storeReading r s.account) x.side) (paramsOf s x) x
      (s.train x) := by
  rw [State.train, ownPostReading_trains]
  refine (judgeExcursions_train _ x).trans ?_
  rw [sideBefore_readingTaken, sideNow, judgedSide_readingTaken, readingTaken_train,
    paramsOf_of_touches (readingTaken_touches r s)]

theorem ownPostReading_store (i : StoreIx) : (ownPostReading r s).store i =
    { s.store i with
      trains := (s.store i).trains.filter fun x =>
        !stopsFor (excursionOf s.account x.side) (judgedSide s.limits (storeReading r s.account) x.side) (s.train x) } := by
  rw [State.store, show (ownPostReading r s).heat = _ from (ownPostReading_frame r s).get .heat]
  refine (judgeExcursions_store _ i).trans ?_
  simp only [sideBefore_readingTaken, sideNow, judgedSide_readingTaken, readingTaken_train, readingTaken_store]

theorem ownPostReading_summary : (ownPostReading r s).heat.summary = s.heat.summary := by
  rw [show (ownPostReading r s).heat = _ from (ownPostReading_frame r s).get .heat]
  exact (judgeExcursions_summary _).trans (congrArg Heat.summary ((readingTaken_touches r s).get .heat))

theorem ownPostReading_timers : (ownPostReading r s).trains.timerA = s.trains.timerA
    ∧ (ownPostReading r s).trains.timerB = s.trains.timerB := by
  rw [ownPostReading_trains, ← show (readingTaken r s).trains = s.trains from (readingTaken_touches r s).get .trains]
  exact judgeExcursions_timers _

theorem ownPostReading_supervision : (ownPostReading r s).supervision =
    if s.supervision.reading = true ∧ s.supervision.window = false then
      { s.supervision with remaining := s.supervision.timeout } else s.supervision := by
  have hs : (readingJudged r s).supervision = s.supervision :=
    ((judgeExcursions_touches _).get .supervision).trans ((readingTaken_touches r s).get .supervision)
  rw [show (ownPostReading r s).supervision = (refreshReading (readingJudged r s)).supervision from rfl,
    refreshReading_supervision, hs]

theorem ownPostReading_port (h : s.port.inFlight = none) : (ownPostReading r s).port =
    { s.port with reply := replyFrame 0x10 .ok (setpointBytes (ownPostReading r s)), inFlight := none } := by
  have hp : (refreshReading (readingJudged r s)).port = s.port := by
    have ht := readingTaken_port r s h
    rw [show (refreshReading (readingJudged r s)).port = _ from (refreshReading_touches _).get .port, readingJudged,
      judgeExcursions_port _ (by rw [ht, h]), ht]
  have hb : setpointBytes (ownPostReading r s) = setpointBytes (readingJudged r s) := by
    simp only [setpointBytes, State.train, ownPostReading_trains]
  rw [hb, ownPostReading_eq, ← hp]
  rfl

/-- R119: a stop leaves a train HOT, so where no class changes the projection of a BASED account stands. -/
theorem ownPostReading_proj_of_classes (hb : s.account.basis = .based)
    (h : ∀ x, ((ownPostReading r s).train x).startClass = (s.train x).startClass) :
    (ownPostReading r s).proj = s.proj := by
  have hp : (readingTaken r s).proj = s.proj := by
    rw [readingTaken, baseAccount_based (s.withAccount (storeReading r s.account)) hb]
    rfl
  rw [show (ownPostReading r s).proj = _ from (ownPostReading_frame r s).get .proj, readingJudged,
    judgeExcursions_proj, hp]
  intro x hx
  rw [sideBefore_readingTaken, sideNow, judgedSide_readingTaken, readingTaken_train] at hx
  have hclass := h x
  rw [ownPostReading_train, sideChange, if_pos hx] at hclass
  rw [readingTaken_train]
  exact hclass.symm

/-- R10: the walk that basing begins runs from the new mass, and each class change begins it again. -/
theorem ownPostReading_walk (hu : s.account.basis = .unbased)
    (hw : s.proj.state ≠ .unavailable ∨ s.clock.running = true) :
    (ownPostReading r s).proj.state = .stale ∧ ∃ w, (ownPostReading r s).proj.walk = some w
      ∧ w.base = s.clock.n ∧ w.mass = (ownPostReading r s).account.mass
      ∧ w.tdk = (ownPostReading r s).account.tMeas := by
  have hfresh : FreshWalk (readingTaken r s) (readingTaken r s) :=
    baseAccount_freshWalk (s.withAccount (storeReading r s.account)) hu hw
  have hj : FreshWalk (readingTaken r s) (readingJudged r s) := hfresh.moves (judgeExcursions_walkMoves _)
  have ha : (ownPostReading r s).account = _ := ownPostReading_account r s
  rw [← readingTaken_account] at ha
  rw [show (ownPostReading r s).proj = _ from (ownPostReading_frame r s).get .proj, ha,
    ← show (readingTaken r s).clock = s.clock from (readingTaken_touches r s).get .clock]
  exact hj

/-- R77: an UNAVAILABLE engine with the clock UNSET drops every basis change of the reading. -/
theorem ownPostReading_dormant (hp : s.proj.state = .unavailable) (hr : s.clock.running = false) :
    (ownPostReading r s).proj = s.proj := by
  have hb : (readingTaken r s).proj = s.proj := baseAccount_dormant (s.withAccount (storeReading r s.account)) hp hr
  have hc : (readingTaken r s).clock = s.clock := (readingTaken_touches r s).get .clock
  rw [show (ownPostReading r s).proj = _ from (ownPostReading_frame r s).get .proj, ← hb]
  exact (judgeExcursions_walkMoves _).2 (by rw [hb, hp]) (by rw [hc, hr])

end

end Sys2Proof.Machine
end

section
open Sys2Proof Sys2Proof.Machine

set_option Elab.async false

/-- Settles O15: the account by storing and basing, the trains and the stores by the two sides' judgement, and the projection by the
walk that basing begins and each class change begins again. -/
theorem postReadingTakesReading : Obligations.PostReadingTakesReading := by
  intro s h r hg
  obtain ⟨-, hbusy, -⟩ := id hg
  have hfree : s.accepted.port.inFlight = none := by
    rw [accepted_port]; simpa [busy] using hbusy
  have hacc := ownPostReading_account r s.accepted
  have htrain := ownPostReading_train r s.accepted
  have hstore := ownPostReading_store r s.accepted
  simp only [accepted_account, accepted_limits, accepted_train, accepted_store, accepted_paramsOf]
    at hacc htrain hstore
  set t := ownPostReading r s.accepted with ht
  intro p k kw hi lo old new stops
  have hnew : ∀ x : TrainIx, judgedSide s.limits (storeReading r s.account) x.side = new x := by
    intro x
    simp only [new]
    cases x.side <;> rfl
  have hstops : ∀ x, stopsFor (excursionOf s.account x.side) (new x) (s.train x) = stops x := fun _ => rfl
  simp only [hnew] at htrain hstore
  refine ⟨t, exec_postReading h r hg, ?_⟩
  refine ⟨(congrArg Account.pMeas hacc).trans (Account.basedBy_pMeas _ _),
    (congrArg Account.tMeas hacc).trans (Account.basedBy_tMeas _ _), fun x => ?_,
    (congrArg Account.readingAge hacc).trans (Account.basedBy_readingAge _ _),
    (congrArg Account.readingSeen hacc).trans (Account.basedBy_readingSeen _ _),
    (congrArg Account.stale hacc).trans (Account.basedBy_stale _ _), ?_,
    (congrArg Account.basis hacc).trans (Account.basedBy_basis _ _),
    (congrArg Account.lastClose hacc).trans (Account.basedBy_lastClose _ _), fun hu => ?_, fun hb => ?_,
    congrArg Account.excHi hacc, congrArg Account.excLo hacc, fun x hx => ?_, fun x hclear hold => ?_, fun x hx hn => ?_,
    ?_, ?_, fun i => hstore i, ?_, ?_, ?_, ?_⟩
  · refine (congrArg (fun a : Account => a.power.get x) hacc).trans ?_
    simp [storeReading, kw]
  · rw [hacc]
    simp only [Account.basedBy_clamped]
    exact storeReading_clamped r s.account
  · obtain ⟨hm, hp, hc, he⟩ : t.account.mass = massFromPressure s.limits p k
        ∧ t.account.pCalc = pressureFromMass s.limits (massFromPressure s.limits p k) k
        ∧ t.account.eC = 0 ∧ t.account.eE = 0 := by
      rw [hacc, Account.basedBy_unbased (storeReading r s.account) s.limits hu]
      exact ⟨rfl, rfl, rfl, rfl⟩
    refine ⟨hm, hp, hc, he, fun hw => ?_, fun hp hr => ?_⟩
    · obtain ⟨hs, w, hwalk, hbase, hmass, htdk⟩ := ownPostReading_walk r s.accepted
        (by simpa using hu) (by simpa using hw)
      refine ⟨hs, w, hwalk, hmass, htdk.trans ?_, hbase.trans (by rw [accepted_clock])⟩
      exact (congrArg Account.tMeas hacc).trans (Account.basedBy_tMeas _ _)
    · exact (ownPostReading_dormant r s.accepted (by simpa using hp) (by simpa using hr)).trans (accepted_proj s)
  · have hstands : (storeReading r s.account).basedBy s.limits = storeReading r s.account :=
      Account.basedBy_based _ _ hb
    rw [hstands] at hacc
    obtain ⟨-, hm, hp, hc, he, -⟩ := storeReading_stands r s.account
    refine ⟨by rw [hacc]; exact hm, by rw [hacc]; exact hp, by rw [hacc]; exact hc, by rw [hacc]; exact he, fun hx => ?_⟩
    exact (ownPostReading_proj_of_classes r s.accepted (by simpa using hb) (by simpa using hx)).trans (accepted_proj s)
  · rw [htrain, sideChange, if_pos ((hstops x).trans hx)]
    rfl
  · rw [htrain, sideChange, if_neg (by simp [stopsFor, hclear]), if_pos ⟨hclear, hold⟩]
  · rw [htrain, sideChange, if_neg (by simp [hstops, hx]), if_neg hn]
  · exact (ownPostReading_timers r s.accepted).1.trans (by rw [accepted_trains])
  · exact (ownPostReading_timers r s.accepted).2.trans (by rw [accepted_trains])
  · exact (ownPostReading_summary r s.accepted).trans (by rw [accepted_heat])
  · rw [ht, ownPostReading_supervision, accepted_supervision]
    exact reloads_twice s.supervision
  · rw [ht, ownPostReading_port _ _ hfree, accepted_port]
  · exact Touches.comp (accepted_touches s) (ownPostReading_touches s.accepted r)

end

section
/-! SUPPORT. What a command, and what one block's response, may touch; and how a law passes through the events of several blocks
(R69, R90, R128, R129). -/

namespace Sys2Proof

set_option Elab.async false
namespace Machine

/-! ### The frame of a command -/

/-- R116: what EXCURSION_CLEAR touches: sides that become CLEAR stop no train. -/
theorem ownExcursionClear_frame (b : Byte) (s : State) : Touches [.account, .trains, .port] s (ownExcursionClear b s) := by
  have hr : ∀ r, Touches [.account, .trains, .port] s (answer 0x13 r [] s) :=
    fun r => (answer_touches s _ _ _).mono (by decide)
  by_cases hb : b.toNat < 3
  · have hsides := excursionSidesOf_some hb
    cases hstale : s.account.stale
    · by_cases ha : NamesActive (decide (b.toNat = 0 ∨ b.toNat = 2)) (decide (b.toNat = 1 ∨ b.toNat = 2)) s.account
      · rw [ownExcursionClear_active hsides hstale ha]; exact hr _
      · rw [ownExcursionClear_taken hsides hstale ha]
        exact (clearBoth_touches _ _ s).comp (answer_touches _ _ _ _)
    · rw [ownExcursionClear_stale hsides hstale]; exact hr _
  · rw [ownExcursionClear_badSide (Nat.not_lt.mp hb)]; exact hr _

/-- Every field of the state. -/
abbrev allFields : List Field :=
  [.account, .heat, .table, .proj, .trains, .clock, .dispatch, .orders, .mode, .limits, .locked, .supervision, .port, .por,
    .due, .freeCount, .pending]

/-- What a request that only reads, or that is the port's own, may touch. -/
abbrev readerFields : List Field := [.port, .supervision]

end Machine

open Machine in
/-- The fields a command may touch. -/
def Instr.fields : Instr → List Field
  | .powerOnReset _ => allFields
  | .secondEvent _ | .boundary _ | .syncPulse _ => eventFields
  | .readingStale => [.account]
  | .startingExpiry _ | .stopTimeExpiry _ | .minDownExpiry _ | .hotWindowExpiry _ => [.trains, .proj, .port]
  | .readyMaxExpiry _ | .tripAssertion _ => trainFields
  | .heaterCycleWrap _ | .tripRelease _ => [.trains]
  | .confirmWindowExpiry _ | .holdExpiry _ | .orderByte _ _ | .telegramGapTimeout => [.orders, .port]
  | .supervisionExpiry => modeFields
  | .fullWalkComplete => [.table, .proj, .port]
  | .trialWalkComplete => [.table, .freeCount, .proj, .port]
  | .postReading _ _ => [.account, .trains, .heat, .proj, .supervision, .port]
  | .rebase _ => .account :: .proj :: readerFields
  | .excursionClear _ _ => .account :: .trains :: readerFields
  | .storeService _ _ _ => .heat :: .proj :: readerFields
  | .storeSet _ _ _ => .heat :: readerFields
  | .admitEntry _ _ => .proj :: readerFields
  | .amend _ _ | .withdraw _ _ | .settle _ _ => .table :: .proj :: readerFields
  | .trainService _ _ _ | .trainReset _ _ | .trainUnlock _ _ | .trainPriority _ _ _ | .heaterAssign _ _ _
  | .heaterTimer _ _ _ _ => .trains :: .proj :: readerFields
  | .patternWrite _ _ | .orderRelease _ _ => .orders :: readerFields
  | .clockSet _ _ _ _ => .clock :: .due :: responseFields
  | .paramWrite _ _ _ => .limits :: .heat :: readerFields
  | .lockLimits _ => .locked :: modeFields
  | .keepalive _ | .forceExpiry _ | .resume _ | .recover _ | .enterHold _ | .enterSafe _ => modeFields
  | .restart _ => .orders :: .proj :: readerFields
  | .identify _ | .notices _ _ | .noticeMaskSet _ _ | .noticeMaskClear _ _ | .readAccount _ | .readStore _ _
  | .queryEntry _ _ | .findInterval _ _ _ _ | .findReference _ _ _ _ | .projectionState _
  | .readProjection _ _ _ _ _ | .readNext _ | .readTrain _ _ | .patternRead _ _ | .orderState _ | .clockRead _
  | .paramRead _ _ | .supervisionSet _ _ | .frameWrittenWhileBusy | .frameFailingChecks _
  | .unknownRequest _ _ => readerFields

namespace Machine

/-- A command leaves one state, which its frame bounds. -/
def Leaves (c : Instr) (s : State) (fs : List Field) : Prop := ∃ t, exec c s = .next t ∧ Touches fs s t

section
variable {s : State} {fs : List Field}

/-- An event's frame is what it does where it is taken. -/
theorem Leaves.of_event {c : Instr} (f : State → State) (hc : exec c s = .next (unlessHeld f s))
    (h : Touches fs s (f s)) : Leaves c s fs := ⟨_, hc, unlessHeld_touches s f h⟩

/-- A request's frame is its owner's, with the port and the supervision timer. -/
theorem Leaves.of_request {c : Instr} (r : Request) (h : Head) (owner : State → State)
    (hc : exec c s = .next (takeRequest r h owner s)) {gs : List Field} (ho : ∀ u, Touches gs u (owner u))
    (hfs : (Field.port :: .supervision :: gs).all (fun f => decide (f ∈ fs)) = true := by rfl) : Leaves c s fs := by
  have hmem : ∀ f ∈ Field.port :: .supervision :: gs, f ∈ fs := by simpa only [List.all_eq_true, decide_eq_true_eq] using hfs
  exact ⟨_, hc, takeRequest_touches s r h owner (hmem _ (by simp)) (hmem _ (by simp))
    fun u => (ho u).mono fun f hf => hmem f (by simp [hf])⟩

/-- An event that happens only under a condition. -/
theorem touches_ite {p : Prop} [Decidable p] {t : State} (h : Touches fs s t) : Touches fs s (if p then t else s) := by
  split
  · exact h
  · exact Touches.same _ s

end

/-- A frame that fails a check is answered by the port (R185). -/
theorem badFrame_touches (s : State) (c : Byte) (r : Result) (u : State) (hu : Touches readerFields s u) :
    Touches readerFields s (if busy s then discardFrame s else answer c r [] u) := by
  split
  · exact (discardFrame_touches s).mono (by decide)
  · exact hu.comp (answer_touches _ _ _ _)

theorem telegramGap_touches (s : State) : Touches [.orders, .port] s
    (match s.orders.assembler with
      | .hunting => s
      | .collecting _ => discardTelegram s) := by
  split
  · exact Touches.same _ s
  · exact (discardTelegram_touches s).mono (by decide)

theorem unknownRequest_touches (s : State) (code : Byte) : Touches readerFields s
    (if busy s then discardFrame s
      else if (Request.ofCode code).isSome then s
      else answer code .unknownRequest [] (refreshAny (acceptFrame s))) := by
  split
  · exact (discardFrame_touches s).mono (by decide)
  · split
    · exact Touches.same _ s
    · exact (accepted_touches s).comp (answer_touches _ _ _ _)

theorem exec_event_frame (c : Instr) (s : State) (hc : c.request? = none) : Leaves c s c.fields := by
  cases c with
  | powerOnReset _ => exact ⟨_, rfl, fun f hf => absurd (by cases f <;> decide) (show f ∉ allFields from hf)⟩
  | secondEvent how => exact .of_event _ rfl (secondNow_touches s how)
  | boundary how => exact .of_event _ rfl (touches_ite (boundaryNow_touches s how))
  | syncPulse how => exact .of_event _ rfl (touches_ite (pulseNow_touches s how))
  | readingStale => exact .of_event _ rfl (touches_ite (touches_withAccount s _))
  | startingExpiry x => exact .of_event _ rfl (touches_ite (enterReady_touches s x))
  | readyMaxExpiry x => exact .of_event _ rfl (touches_ite (enterStopping_touches s x))
  | stopTimeExpiry x => exact .of_event _ rfl (touches_ite (enterCooldown_touches s x))
  | minDownExpiry x => exact .of_event _ rfl (touches_ite (enterIdle_touches s x))
  | hotWindowExpiry x => exact .of_event _ rfl (touches_ite (putTrain_touches s x _))
  | heaterCycleWrap k => exact .of_event _ rfl (touches_ite (setCycle_touches s k _))
  | confirmWindowExpiry d => exact .of_event _ rfl (touches_ite (releaseAct_touches s d _))
  | holdExpiry d => exact .of_event _ rfl (touches_ite (releaseAct_touches s d _))
  | supervisionExpiry => exact .of_event _ rfl (touches_ite (countSupervision_touches s))
  | fullWalkComplete => exact .of_event _ rfl (fullWalkCompletes_touches s)
  | trialWalkComplete => exact .of_event _ rfl (trialCompletes_touches s)
  | tripAssertion x => exact .of_event _ rfl (tripAssert_touches s x)
  | tripRelease x => exact .of_event _ rfl (setTrain_touches s x _)
  | orderByte v f => exact .of_event _ rfl (takeOrderByte_touches s v f)
  | telegramGapTimeout => exact .of_event _ rfl (telegramGap_touches s)
  | frameWrittenWhileBusy => exact .of_event _ rfl (touches_ite ((discardFrame_touches s).mono (by decide)))
  | frameFailingChecks check =>
    exact .of_event _ rfl (badFrame_touches s 0 .badFrame _ ((acceptFrame_touches s).mono (by decide)))
  | unknownRequest client code => exact .of_event _ rfl (unknownRequest_touches s code)
  | _ => exact absurd hc nofun

theorem exec_request_frame (c : Instr) (s : State) (hc : c.request? ≠ none) : Leaves c s c.fields := by
  cases c with
  | identify h => exact .of_request _ _ _ rfl fun u => answer_touches u _ _ _
  | notices h set => exact .of_request _ _ _ rfl fun u => ownNotices_touches u set
  | noticeMaskSet h set => exact .of_request _ _ _ rfl fun u => answerMask_touches u _ _
  | noticeMaskClear h set => exact .of_request _ _ _ rfl fun u => answerMask_touches u _ _
  | restart h => exact .of_request _ _ _ rfl ownRestart_touches
  | postReading h r => exact .of_request _ _ _ rfl fun u => ownPostReading_touches u r
  | readAccount h => exact .of_request _ _ _ rfl fun u => answer_touches u _ _ _
  | rebase h => exact .of_request _ _ _ rfl ownRebase_touches
  | excursionClear h side => exact .of_request _ _ _ rfl (ownExcursionClear_frame side)
  | storeService h i d => exact .of_request _ _ _ rfl fun u => ownStoreService_touches u i d
  | storeSet h i v => exact .of_request _ _ _ rfl fun u => ownStoreSet_touches u i v
  | readStore h i => exact .of_request _ _ _ rfl fun u => ownReadStore_touches u i
  | admitEntry h a => exact .of_request _ _ _ rfl fun u => ownAdmit_touches u a
  | amend h a => exact .of_request _ _ _ rfl fun u => ownAmend_touches u h.client a
  | withdraw h id => exact .of_request _ _ _ rfl fun u => ownWithdraw_touches u h.client id
  | settle h id => exact .of_request _ _ _ rfl fun u => ownSettle_touches u id
  | queryEntry h id => exact .of_request _ _ _ rfl fun u => ownQueryEntry_touches u id
  | findInterval h n f q => exact .of_request _ _ _ rfl fun u => ownFindInterval_touches u n f q
  | findReference h n f q => exact .of_request _ _ _ rfl fun u => ownFindReference_touches u n f q
  | projectionState h => exact .of_request _ _ _ rfl fun u => answer_touches u _ _ _
  | readProjection h a b c d => exact .of_request _ _ _ rfl fun u => ownReadProjection_touches u a b c d
  | readNext h => exact .of_request _ _ _ rfl ownReadNext_touches
  | trainService h i d => exact .of_request _ _ _ rfl fun u => ownTrainService_touches u i d
  | trainReset h i => exact .of_request _ _ _ rfl fun u => ownTrainReset_touches u i
  | trainUnlock h i => exact .of_request _ _ _ rfl fun u => ownTrainUnlock_touches u i
  | trainPriority h d l => exact .of_request _ _ _ rfl fun u => ownTrainPriority_touches u d l
  | heaterAssign h i v => exact .of_request _ _ _ rfl fun u => ownHeaterAssign_touches u i v
  | heaterTimer h k p o => exact .of_request _ _ _ rfl fun u => ownHeaterTimer_touches u k p o
  | readTrain h i => exact .of_request _ _ _ rfl fun u => ownReadTrain_touches u i
  | patternWrite h a => exact .of_request _ _ _ rfl fun u => ownPatternWrite_touches u a
  | patternRead h i => exact .of_request _ _ _ rfl fun u => ownPatternRead_touches u i
  | orderState h => exact .of_request _ _ _ rfl fun u => answer_touches u _ _ _
  | orderRelease h d => exact .of_request _ _ _ rfl fun u => ownOrderRelease_touches u d
  | clockSet h n d c => exact .of_request _ _ _ rfl fun u => ownClockSet_touches u n d c
  | clockRead h => exact .of_request _ _ _ rfl fun u => answer_touches u _ _ _
  | paramWrite h i v => exact .of_request _ _ _ rfl fun u => ownParamWrite_touches u i v
  | paramRead h i => exact .of_request _ _ _ rfl fun u => ownParamRead_touches u i
  | lockLimits h => exact .of_request _ _ _ rfl ownLockLimits_touches
  | supervisionSet h a => exact .of_request _ _ _ rfl fun u => ownSupervisionSet_touches u a
  | keepalive h => exact .of_request _ _ _ rfl ownKeepalive_touches
  | forceExpiry h => exact .of_request _ _ _ rfl ownForceExpiry_touches
  | resume h => exact .of_request _ _ _ rfl ownResume_touches
  | recover h => exact .of_request _ _ _ rfl ownRecover_touches
  | enterHold h => exact .of_request _ _ _ rfl ownEnterHold_touches
  | enterSafe h => exact .of_request _ _ _ rfl ownEnterSafe_touches
  | _ => exact absurd rfl hc

/-- Every command leaves one state and touches only its own fields. -/
theorem exec_frame (c : Instr) (s : State) : Leaves c s c.fields := by
  by_cases hc : c.request? = none
  · exact exec_event_frame c s hc
  · exact exec_request_frame c s hc

end Machine
end Sys2Proof
end

section
/-! SUPPORT. How a law passes from a block's responses to the events, and from an owner to its request (R69, R90, R128, R129). -/

namespace Sys2Proof.Machine

set_option Elab.async false

/-! ### The frame of one response (R69, R90) -/

/-- What a block's response may touch. -/
def partFields : Part → List Field
  | .accountSecond => [.account]
  | .storesSecond | .storesLoss => [.heat]
  | .trainsSecond => trainFields
  | .dispatchSecond => dispatchFields
  | .ordersSecond | .ordersBoundary => [.orders, .port]
  | .supervisionSecond => modeFields
  | .clockSecond => []
  | .accountClose => [.account, .proj, .port]
  | .tableBoundary => [.table, .dispatch, .orders, .port]
  | .dispatchClose => [.dispatch]
  | .trainsDay => [.trains]
  | .projectionBoundary => [.proj, .port]

theorem respondSecond_frame (p : Part) (s : State) : Touches (partFields p) s (respondSecond p s) := by
  cases p with
  | accountSecond => exact accountSecond_touches s
  | storesSecond => exact storesSecond_touches s
  | trainsSecond => exact trainsSecond_touches s
  | dispatchSecond => exact dispatchSecond_touches s
  | ordersSecond => exact ordersSecond_touches s
  | supervisionSecond => exact supervisionSecond_touches s
  | _ => exact Touches.same _ s

theorem respondBoundary_frame (b : Turn) (p : Part) (s : State) : Touches (partFields p) s (respondBoundary b p s) := by
  cases p with
  | accountClose => exact accountClose_touches s
  | storesLoss => exact storesLoss_touches s
  | tableBoundary => exact tableBoundary_touches s _ _
  | dispatchClose => exact dispatchClose_touches s _
  | ordersBoundary => exact ordersBoundary_touches s _ _
  | trainsDay => exact trainsDay_touches s b
  | projectionBoundary => exact basisChange_touches s
  | _ => exact Touches.same _ s

theorem respondDue_frame (d : Due) (s : State) : Touches (partFields d.part) s (respondDue d s) := by
  cases d with
  | second p => exact respondSecond_frame p s
  | boundary b p => exact respondBoundary_frame b p s

/-! ### Laws through the events -/

/-- P holds on after anything that touches only the fields fs. -/
def Ignores (P : State → Prop) (fs : List Field) : Prop := ∀ ⦃s t⦄, Touches fs s t → P s → P t

/-- P holds on after f. -/
def Kept (P : State → Prop) (f : State → State) : Prop := ∀ s, P s → P (f s)

section
variable {P : State → Prop}

theorem Kept.foldl {α : Type} (f : State → α → State) (hf : ∀ a, Kept P fun s => f s a) :
    ∀ (l : List α) (s : State), P s → P (l.foldl f s)
  | [], _, h => h
  | a :: l, s, h => Kept.foldl f hf l (f s a) (hf a s h)

theorem kept_ite {f : State → State} {s : State} {c : Prop} [Decidable c] (hf : Kept P f) (h : P s) :
    P (if c then f s else s) := by
  split
  · exact hf s h
  · exact h

/-- A law of the owner is the request's, if the port's own handling does not bear on it. -/
theorem takeRequest_kept (hi : Ignores P readerFields) {owner : State → State} (ho : Kept P owner) (r : Request)
    (h : Head) : Kept P (takeRequest r h owner) := by
  intro s hs
  have ha : P s.accepted := hi ((accepted_touches s).mono (by decide)) hs
  have hr : ∀ c q p, P (answer c q p s.accepted) := fun c q p => hi ((answer_touches _ c q p).mono (by decide)) ha
  obtain ⟨-, h⟩ | ⟨-, -, h⟩ | ⟨-, -, -, h⟩ | ⟨-, -, -, -, h⟩ | ⟨-, -, -, -, h⟩ := takeRequest_cases s r h owner <;> rw [h]
  · exact hs
  · exact hi ((discardFrame_touches s).mono (by decide)) hs
  · exact hr _ _ _
  · exact hr _ _ _
  · exact ho _ ha

theorem unlessHeld_kept {f : State → State} (hf : Kept P f) : Kept P (unlessHeld f) := by
  intro s hs
  unfold unlessHeld; split
  · exact hs
  · exact hf s hs

theorem respondAll_kept (hr : ∀ d, Kept P (respondDue d)) (ds : List Due) : Kept P (respondAll ds) :=
  fun s => Kept.foldl _ hr ds s

section
variable (hi : Ignores P [.clock, .due, .port]) (hr : ∀ d, Kept P (respondDue d))
include hi hr

theorem settle_kept (b : Bool) : Kept P (settle b) := fun s hs =>
  respondAll_kept hr _ _ (hi ((touches_withDue s _).mono (by decide)) hs)

theorem respondOrPutOff_kept (later : List Part) (ds : List Due) : Kept P (respondOrPutOff later ds) := fun s hs =>
  respondAll_kept hr _ _ (hi ((touches_withDue s _).mono (by decide)) hs)

theorem settleForSecond_kept : Kept P settleForSecond := fun s hs =>
  kept_ite (settle_kept hi hr true) (settle_kept hi hr false s hs)

theorem boundaryNow_kept (how : Schedule) : Kept P (boundaryNow how) := fun s hs =>
  respondOrPutOff_kept hi hr _ _ _ (hi ((endInterval_touches _).mono (by decide)) (settle_kept hi hr true s hs))

theorem secondNow_kept (how : Schedule) : Kept P (secondNow how) := fun s hs =>
  respondOrPutOff_kept hi hr _ _ _ (hi ((clockSecond_touches _).mono (by decide))
    (respondOrPutOff_kept hi hr _ _ _ (settleForSecond_kept hi hr s hs)))

theorem pulseNow_kept (how : Schedule) : Kept P (pulseNow how) := by
  intro s hs
  have hk : P (keepCapture s) := hi ((keepCapture_touches s).mono (by decide)) hs
  unfold pulseNow; split
  · exact boundaryNow_kept hi hr how _ hk
  · exact hi ((restartCount_touches _).mono (by decide)) hk
  · exact hi ((raise_touches _ _).mono (by decide)) hk

theorem respondNext_kept : Kept P respondNext := by
  intro s hs
  unfold respondNext; split
  · exact hs
  · exact hr _ _ (hi ((touches_withDue s _).mono (by decide)) hs)

/-- A law that every response keeps is kept by the three events of several blocks. -/
theorem exec_events_kept {how : Schedule} {c : Instr} (hc : c = .secondEvent how ∨ c = .boundary how ∨ c = .syncPulse how)
    {s t : State} (h : exec c s = .next t) (hs : P s) : P t := by
  rcases hc with rfl | rfl | rfl <;> obtain rfl := Host.Outcome.next.inj h
  · exact unlessHeld_kept (secondNow_kept hi hr how) s hs
  · exact unlessHeld_kept (fun s => kept_ite (boundaryNow_kept hi hr how)) s hs
  · exact unlessHeld_kept (fun s => kept_ite (pulseNow_kept hi hr how)) s hs

end

/-- A law of some fields is kept by every command that touches none of them. -/
theorem exec_kept_of_frame {c : Instr} (hi : Ignores P c.fields) {s t : State} (h : exec c s = .next t) (hs : P s) :
    P t := by
  obtain ⟨t', ht, hf⟩ := exec_frame c s
  rw [h] at ht
  obtain rfl := Host.Outcome.next.inj ht
  exact hi hf hs

/-- The step runs a command, or makes a response that is due. -/
theorem step_kept (hi : Ignores P [.pending]) (hn : Kept P respondNext)
    (hc : ∀ c s t, exec c s = .next t → P s → P t) {s t : State} (h : step s = .next t) (hs : P s) : P t := by
  unfold step at h
  split at h
  · obtain rfl := Host.Outcome.next.inj h
    exact unlessHeld_kept hn s hs
  · exact hc _ _ _ h (hi (touches_withPending s _) hs)

end

end Sys2Proof.Machine
end

section
/-! SUPPORT. O55, first law: mass, pressures and temperature stay in their ranges (R2, R5, R10, R16 to R19). -/

namespace Sys2Proof.Machine

set_option Elab.async false

/-! ### An account in its ranges -/

/-- R2, R16: the ranges of an account record. -/
def Account.InRange (a : Account) : Prop :=
  a.mass ≤ 100000000 ∧ a.pCalc ≤ 20000 ∧ a.pMeas ≤ 20000 ∧ 2500 ≤ a.tMeas ∧ a.tMeas ≤ 3500

theorem accountLaw_iff {s : State} : AccountLaw s ↔ s.account.InRange := Iff.rfl

theorem accountLaw_of_account {s t : State} (h : t.account = s.account) (hs : AccountLaw s) : AccountLaw t := by
  rw [accountLaw_iff, h]; exact hs

/-- The account law reads the account alone. -/
theorem accountLaw_ignores {fs : List Field} (h : .account ∉ fs) : Ignores AccountLaw fs :=
  fun _ _ hf => accountLaw_of_account (hf .account h)

theorem pressureFromMass_le (l : Limits) (m tdk : Nat) : pressureFromMass l m tdk ≤ 20000 := min_le_left _ _

theorem massFromPressure_le (l : Limits) (p tdk : Nat) : massFromPressure l p tdk ≤ 100000000 := min_le_left _ _

/-- R18, R19: a mass taken from the reading is in range, and so is its pressure. -/
theorem Account.massFromReading_eq (a : Account) (l : Limits) : ∃ m p, m ≤ 100000000 ∧ p ≤ 20000
    ∧ a.massFromReading l = { a with mass := m, pCalc := p } :=
  ⟨_, _, massFromPressure_le _ _ _, pressureFromMass_le _ _ _, rfl⟩

/-- R16, R17: the mass of a close is saturated. -/
theorem closedMass_eq (s : State) : ∃ m p, m ≤ 100000000 ∧ p ≤ 20000
    ∧ closedMass s = { s.account with mass := m, pCalc := p } :=
  ⟨_, _, min_le_left _ _, pressureFromMass_le _ _ _, rfl⟩

/-! ### The close (R16 to R18) -/

/-- R16 to R18: the account of a close before its accumulators are cleared. -/
def closedAccount (s : State) : Account :=
  if closeRebases (closedMass s) s.limits then (closedMass s).massFromReading s.limits else closedMass s

theorem closedAccount_eq (s : State) : ∃ m p, m ≤ 100000000 ∧ p ≤ 20000
    ∧ closedAccount s = { s.account with mass := m, pCalc := p } := by
  obtain ⟨m, p, hm, hp, hc⟩ := closedMass_eq s
  rw [closedAccount, hc]
  split
  · obtain ⟨m', p', hm', hp', hr⟩ := Account.massFromReading_eq { s.account with mass := m, pCalc := p } s.limits
    exact ⟨m', p', hm', hp', by rw [hr]⟩
  · exact ⟨m, p, hm, hp, rfl⟩

theorem accountClose_unbased {s : State} (h : s.account.basis = .unbased) :
    accountClose s = s.withAccount { s.account with eC := 0, eE := 0, lastClose := ⟨0, 0, false⟩ } := by
  simp only [accountClose, h]

/-- R16 to R18: a BASED account after the close. -/
theorem accountClose_based {s : State} (h : s.account.basis = .based) : (accountClose s).account =
    { closedAccount s with
      eC := 0, eE := 0
      lastClose := ⟨chargedMass s, dischargedMass s, closeRebases (closedMass s) s.limits⟩ } := by
  obtain ⟨m, p, -, -, hc⟩ := closedAccount_eq s
  have hstands : ∀ u, (closeBasisChange u).account = u.account := fun u => (closeBasisChange_touches u).get .account
  have hif : ∀ (b : Bool) (u : State), (if b then raise .rebased u else u).account = u.account :=
    fun b u => by cases b <;> rfl
  unfold accountClose
  simp only [h, hstands, hif]
  rfl

theorem accountClose_accountLaw : Kept AccountLaw accountClose := by
  intro s hs
  obtain ⟨-, -, hreading⟩ := accountLaw_iff.mp hs
  cases h : s.account.basis with
  | unbased => rw [accountClose_unbased h]; exact hs
  | based =>
    obtain ⟨m, p, hm, hp, hc⟩ := closedAccount_eq s
    rw [accountLaw_iff, accountClose_based h, hc]
    exact ⟨hm, hp, hreading⟩

/-! ### The responses and the requests -/

theorem respondDue_accountLaw (d : Due) : Kept AccountLaw (respondDue d) := by
  have hframe : .account ∉ partFields d.part → Kept AccountLaw (respondDue d) :=
    fun h s => accountLaw_ignores h (respondDue_frame d s)
  cases d with
  | second p =>
    cases p with
    | accountSecond | accountClose => exact fun s hs => hs
    | _ => exact hframe (by simp [Due.part, partFields])
  | boundary b p =>
    cases p with
    | accountClose => exact accountClose_accountLaw
    | accountSecond => exact fun s hs => hs
    | _ => exact hframe (by simp [Due.part, partFields])

theorem clampInt_bounds {lo hi : Nat} (h : lo ≤ hi) (z : Int) : lo ≤ clampInt lo hi z ∧ clampInt lo hi z ≤ hi := by
  unfold clampInt
  split
  · exact ⟨le_rfl, h⟩
  · split
    · exact ⟨h, le_rfl⟩
    · omega

/-- R5, R10: a reading is stored clamped, and basing takes a mass in range. -/
theorem ownPostReading_accountLaw (r : ReadingArgs) : Kept AccountLaw (ownPostReading r) := by
  intro s hs
  obtain ⟨hmass, hcalc, -⟩ := accountLaw_iff.mp hs
  have hp := (clampInt_bounds (Nat.zero_le 20000) r.pressure.toInt).2
  have ht := clampInt_bounds (show 2500 ≤ 3500 by decide) r.temperature.toInt
  have hbased : ((storeReading r s.account).basedBy s.limits).mass ≤ 100000000
      ∧ ((storeReading r s.account).basedBy s.limits).pCalc ≤ 20000 := by
    cases hb : (storeReading r s.account).basis
    · rw [Account.basedBy_unbased _ _ hb]
      exact ⟨massFromPressure_le _ _ _, pressureFromMass_le _ _ _⟩
    · rw [Account.basedBy_based _ _ hb]
      exact ⟨hmass, hcalc⟩
  have htdk : ((storeReading r s.account).basedBy s.limits).tMeas = clampInt 2500 3500 r.temperature.toInt :=
    Account.basedBy_tMeas _ _
  rw [accountLaw_iff, ownPostReading_account]
  exact ⟨hbased.1, hbased.2, (Account.basedBy_pMeas _ _).trans_le hp, ht.1.trans htdk.ge, htdk.le.trans ht.2⟩

theorem ownRebase_accountLaw : Kept AccountLaw ownRebase := by
  intro s hs
  obtain ⟨-, -, hreading⟩ := accountLaw_iff.mp hs
  cases h : s.account.stale
  · obtain ⟨m, p, hm, hp, hmp⟩ := s.account.massFromReading_eq s.limits
    rw [accountLaw_iff, ownRebase_fresh_of_reading h hmp]
    refine ⟨?_, ?_, ?_⟩
    · show (basisChange _).account.mass ≤ _
      rw [basisChange_account]; exact hm
    · show (basisChange _).account.pCalc ≤ _
      rw [basisChange_account]; exact hp
    · show (basisChange _).account.pMeas ≤ _ ∧ _ ≤ (basisChange _).account.tMeas ∧ (basisChange _).account.tMeas ≤ _
      rw [basisChange_account]; exact hreading
  · rw [ownRebase_stale h]; exact hs

theorem ownExcursionClear_accountLaw (b : Byte) : Kept AccountLaw (ownExcursionClear b) := by
  intro s hs
  by_cases hb : b.toNat < 3
  · have hsides := excursionSidesOf_some hb
    cases hstale : s.account.stale
    · by_cases ha : NamesActive (decide (b.toNat = 0 ∨ b.toNat = 2)) (decide (b.toNat = 1 ∨ b.toNat = 2)) s.account
      · rw [ownExcursionClear_active hsides hstale ha]; exact hs
      · rw [ownExcursionClear_taken hsides hstale ha, accountLaw_iff]
        show Account.InRange (clearNamed _ _ _).account
        rw [clearBoth_account]
        exact hs
    · rw [ownExcursionClear_stale hsides hstale]; exact hs
  · rw [ownExcursionClear_badSide (Nat.not_lt.mp hb)]; exact hs

/-- A law that CLOCK_SET keeps from what it settles is kept by the request. -/
theorem ownClockSet_kept {P : State → Prop} (hi : Ignores P [.clock, .due, .port]) (hr : ∀ d, Kept P (respondDue d))
    (hset : ∀ n d c u, P (settle true u) → P (setClock n d c u)) (n : Word) (d c : Half) :
    Kept P (ownClockSet n d c) := by
  intro s hs
  have hanswer : ∀ r p u, P u → P (answer Request.clockSet.code r p u) :=
    fun r p u hu => hi ((answer_touches u _ _ _).mono (by decide)) hu
  unfold ownClockSet; dsimp only
  split
  · exact hanswer _ _ s hs
  · split
    · exact hanswer _ _ s hs
    · exact hanswer _ _ _ (hset _ _ _ _ (settle_kept hi hr true s hs))

/-- Each command keeps the account in its ranges. -/
theorem exec_accountLaw (c : Instr) (s t : State) (h : exec c s = .next t) (hs : AccountLaw s) : AccountLaw t := by
  have hport : Ignores AccountLaw readerFields := accountLaw_ignores (by decide)
  have hevents : Ignores AccountLaw [.clock, .due, .port] := accountLaw_ignores (by decide)
  cases c with
  | powerOnReset lines =>
    obtain rfl := Host.Outcome.next.inj h
    exact accountLaw_of_account rfl (afterReset_accountLaw lines.trip)
  | secondEvent how => exact exec_events_kept hevents respondDue_accountLaw (.inl rfl) h hs
  | boundary how => exact exec_events_kept hevents respondDue_accountLaw (.inr (.inl rfl)) h hs
  | syncPulse how => exact exec_events_kept hevents respondDue_accountLaw (.inr (.inr rfl)) h hs
  | readingStale =>
    obtain rfl := Host.Outcome.next.inj h
    exact unlessHeld_kept (fun u hu => kept_ite (f := fun u => u.withAccount (u.account.age u.limits)) (fun _ h => h) hu)
      s hs
  | postReading hd r =>
    obtain rfl := Host.Outcome.next.inj h
    exact takeRequest_kept hport (ownPostReading_accountLaw r) _ _ s hs
  | rebase hd =>
    obtain rfl := Host.Outcome.next.inj h
    exact takeRequest_kept hport ownRebase_accountLaw _ _ s hs
  | excursionClear hd b =>
    obtain rfl := Host.Outcome.next.inj h
    exact takeRequest_kept hport (ownExcursionClear_accountLaw b) _ _ s hs
  | clockSet hd n d c =>
    obtain rfl := Host.Outcome.next.inj h
    exact takeRequest_kept hport
      (ownClockSet_kept hevents respondDue_accountLaw
        (fun n d c u => accountLaw_ignores (by decide) (setClock_frame u n d c)) n d c) _ _ s hs
  | _ => exact exec_kept_of_frame (accountLaw_ignores (by simp [Instr.fields])) h hs

/-- R2, R16: every step keeps the account in its ranges. -/
theorem step_accountLaw {s t : State} (h : step s = .next t) (hs : AccountLaw s) : AccountLaw t :=
  step_kept (accountLaw_ignores (by decide))
    (respondNext_kept (accountLaw_ignores (by decide)) respondDue_accountLaw) exec_accountLaw h hs

end Sys2Proof.Machine
end

section
/-! SUPPORT. O55, second law: every store's content stays within its capacity (R28, R33 to R42). -/

namespace Sys2Proof

set_option Elab.async false
namespace Machine

/-! ### A law through a change of mode (R168, R176 to R179) -/

section
variable {P : State → Prop}

/-- A law that the port does not bear on is kept by a reply. -/
theorem answer_kept (hi : Ignores P [.mode, .locked, .supervision, .port]) (c : Byte) (r : Result) (p : List Byte) :
    Kept P (answer c r p) :=
  fun s => hi ((answer_touches s c r p).mono (by decide))

section
variable (hi : Ignores P [.mode, .locked, .supervision, .port]) (hsafe : Kept P enteredSafe)
include hi hsafe

theorem changeMode_kept (m : Mode) : Kept P (changeMode m) := by
  intro s hs
  have hr : P (raise .mode (s.withMode m)) :=
    hi ((touches_withMode s m).comp (raise_touches _ _)) hs
  unfold changeMode; dsimp only
  split
  · exact hsafe _ hr
  · exact hi ((reloadTimer_touches _).mono (by decide)) hr
  · exact hi ((reloadTimer_touches _).mono (by decide)) hr
  · exact hr

theorem supervisionFailure_kept : Kept P supervisionFailure := by
  intro s hs
  have hc : P (countFailure s) := hi ((touches_withSupervision s _).mono (by decide)) hs
  unfold supervisionFailure; dsimp only
  split
  · exact changeMode_kept hi hsafe _ _ hc
  · exact changeMode_kept hi hsafe _ _ hc
  · exact changeMode_kept hi hsafe _ _ hc
  · exact hc
  · exact hc

theorem countSupervision_kept : Kept P countSupervision := fun s hs =>
  kept_ite (supervisionFailure_kept hi hsafe) (hi ((touches_withSupervision s _).mono (by decide)) hs)

theorem supervisionSecond_kept : Kept P supervisionSecond := fun _ hs => kept_ite (countSupervision_kept hi hsafe) hs

/-- R170, R174: a change into NORMAL that clears the failures. -/
theorem changeMode_cleared_kept (m : Mode) : Kept P fun s => clearFailures (changeMode m s) := fun s hs =>
  hi ((clearFailures_touches _).mono (by decide)) (changeMode_kept hi hsafe m s hs)

theorem ownLockLimits_kept : Kept P ownLockLimits := by
  intro s hs
  unfold ownLockLimits; split
  · exact answer_kept hi _ _ _ s hs
  · split
    · exact answer_kept hi _ _ _ s hs
    · split
      · exact answer_kept hi _ _ _ s hs
      · split
        · exact answer_kept hi _ _ _ s hs
        · exact answer_kept hi _ _ _ _
            (changeMode_cleared_kept hi hsafe .normal _ (hi ((touches_withLocked s true).mono (by decide)) hs))

theorem ownKeepalive_kept : Kept P ownKeepalive := by
  intro s hs
  refine answer_kept hi _ _ _ _ ?_
  split
  · exact supervisionFailure_kept hi hsafe s hs
  · exact hi ((reloadTimer_touches s).mono (by decide)) hs

theorem ownForceExpiry_kept : Kept P ownForceExpiry := by
  intro s hs
  unfold ownForceExpiry; split
  · exact answer_kept hi _ _ _ s hs
  · split
    · exact answer_kept hi _ _ _ s hs
    · exact answer_kept hi _ _ _ _ (supervisionFailure_kept hi hsafe s hs)

theorem ownResume_kept : Kept P ownResume := by
  intro s hs
  unfold ownResume; split
  · exact answer_kept hi _ _ _ _ (changeMode_cleared_kept hi hsafe .normal s hs)
  · exact answer_kept hi _ _ _ s hs

theorem ownRecover_kept : Kept P ownRecover := by
  intro s hs
  unfold ownRecover; split
  · exact answer_kept hi _ _ _ s hs
  · split
    · exact answer_kept hi _ _ _ s hs
    · split
      · exact answer_kept hi _ _ _ s hs
      · exact answer_kept hi _ _ _ _ (changeMode_cleared_kept hi hsafe .normal s hs)

theorem ownEnterHold_kept : Kept P ownEnterHold := by
  intro s hs
  unfold ownEnterHold; split
  · exact answer_kept hi _ _ _ _ (changeMode_kept hi hsafe .hold s hs)
  all_goals exact answer_kept hi _ _ _ s hs

theorem ownEnterSafe_kept : Kept P ownEnterSafe := by
  intro s hs
  unfold ownEnterSafe; split
  · exact answer_kept hi _ _ _ _ (changeMode_kept hi hsafe .safe s hs)
  · exact answer_kept hi _ _ _ _ (changeMode_kept hi hsafe .safe s hs)
  all_goals exact answer_kept hi _ _ _ s hs

end

end

end Machine

/-- The commands whose effects on other blocks are those of a change of mode (R168). -/
def Instr.rulesMode : Instr → Bool
  | .supervisionExpiry | .lockLimits _ | .keepalive _ | .forceExpiry _ | .resume _ | .recover _ | .enterHold _
  | .enterSafe _ => true
  | _ => false

namespace Machine

/-- A law that entry into SAFE keeps is kept by every command that rules the mode. -/
theorem exec_rulesMode_kept {P : State → Prop} (hi : Ignores P [.mode, .locked, .supervision, .port])
    (hsafe : Kept P enteredSafe) {c : Instr} (hc : c.rulesMode = true) {s t : State} (h : exec c s = .next t)
    (hs : P s) : P t := by
  have hport : Ignores P readerFields := fun u v hf => hi (hf.mono (by decide))
  cases c with
  | supervisionExpiry =>
    obtain rfl := Host.Outcome.next.inj h
    exact unlessHeld_kept (fun u hu => kept_ite (countSupervision_kept hi hsafe) hu) s hs
  | lockLimits hd =>
    obtain rfl := Host.Outcome.next.inj h; exact takeRequest_kept hport (ownLockLimits_kept hi hsafe) _ _ s hs
  | keepalive hd =>
    obtain rfl := Host.Outcome.next.inj h; exact takeRequest_kept hport (ownKeepalive_kept hi hsafe) _ _ s hs
  | forceExpiry hd =>
    obtain rfl := Host.Outcome.next.inj h; exact takeRequest_kept hport (ownForceExpiry_kept hi hsafe) _ _ s hs
  | resume hd =>
    obtain rfl := Host.Outcome.next.inj h; exact takeRequest_kept hport (ownResume_kept hi hsafe) _ _ s hs
  | recover hd =>
    obtain rfl := Host.Outcome.next.inj h; exact takeRequest_kept hport (ownRecover_kept hi hsafe) _ _ s hs
  | enterHold hd =>
    obtain rfl := Host.Outcome.next.inj h; exact takeRequest_kept hport (ownEnterHold_kept hi hsafe) _ _ s hs
  | enterSafe hd =>
    obtain rfl := Host.Outcome.next.inj h; exact takeRequest_kept hport (ownEnterSafe_kept hi hsafe) _ _ s hs
  | _ => exact absurd hc nofun

/-! ### Contents (R28) -/

theorem contentLaw_of_le {s t : State} (hl : t.limits = s.limits)
    (h : ∀ i, (t.store i).contentKj ≤ (s.store i).contentKj) (hs : ContentLaw s) : ContentLaw t := fun i => by
  rw [capacityKj, capacityMj, hl]
  exact (h i).trans (hs i)

/-- The content law reads the stores and the limits alone. -/
theorem contentLaw_ignores {fs : List Field} (h : .heat ∉ fs) (hl : .limits ∉ fs) : Ignores ContentLaw fs :=
  fun s t hf => contentLaw_of_le (hf .limits hl) fun i => by
    rw [State.store, show t.heat = s.heat from hf .heat h, State.store]

/-- What moves no heat keeps the law. -/
theorem Quiet.contentLaw {s t : State} (h : Quiet s t) : ContentLaw s → ContentLaw t :=
  contentLaw_of_le (h.touches.get .limits) fun i => (h.content i).le

theorem contentLaw_setStore {s : State} {i : StoreIx} {v : Store} (hv : v.contentKj ≤ capacityKj s i)
    (hs : ContentLaw s) : ContentLaw (s.setStore i v) := by
  intro j
  rw [setStore_store]
  by_cases hj : j = i
  · subst hj; rw [if_pos rfl]; exact hv
  · rw [if_neg hj]; exact hs j

/-- The summary is no store's. -/
theorem contentLaw_setSummary (v : HeatSummary) : Kept ContentLaw fun s => s.setSummary v := fun _ hs => hs

theorem recomputePools_contentLaw : Kept ContentLaw recomputePools := fun _ hs => hs

/-! ### The second (R33 to R38) -/

/-- R33: after its heat a store holds no more than its capacity, whatever it held before. -/
theorem moveHeat_contentLaw (s : State) : ContentLaw (moveHeat s) := fun i => by
  rw [moveHeat, State.store, State.withHeat_heat, PerStore.get_ofFn]
  exact (Nat.sub_le _ _).trans (min_le_left _ _)

/-- A store written with the content it had. -/
theorem setStore_content {s : State} {i : StoreIx} {v : Store} (hv : v.contentKj = (s.store i).contentKj) (k : StoreIx) :
    ((s.setStore i v).store k).contentKj = (s.store k).contentKj := by
  rw [setStore_store]
  split
  next hk => rw [hv, hk]
  · rfl

/-- R34, R36: a move of trains moves no heat. -/
theorem moveTrains_content (i j : StoreIx) (s : State) (k : StoreIx) :
    ((moveTrains i j s).store k).contentKj = (s.store k).contentKj := by
  unfold moveTrains; dsimp only
  refine (setStore_content ?_ k).trans (setStore_content ?_ k) <;> rfl

theorem moveTrains_contentLaw (i j : StoreIx) : Kept ContentLaw (moveTrains i j) := fun s =>
  contentLaw_of_le ((moveTrains_touches s i j).get .limits) fun k => (moveTrains_content i j s k).le

/-- R34: a store takes of an overflow at most its room. -/
theorem handleFull_contentLaw (spill : PerStore Nat) (i : StoreIx) (sr : State × Nat) (hs : ContentLaw sr.1) :
    ContentLaw (handleFull spill i sr).1 := by
  unfold handleFull; dsimp only
  split
  · split
    · exact hs
    next j _ =>
      have hm := moveTrains_contentLaw i j _ hs
      refine contentLaw_setStore ?_ hm
      have hcap : capacityKj (moveTrains i j sr.1) j = capacityKj sr.1 j :=
        congrArg (fun l : Limits => l.capHs.get j * 1000) ((moveTrains_touches sr.1 i j).get .limits)
      have hheld := hs j
      have htaken : min (roomKj sr.1 j) (spill.get i) ≤ roomKj sr.1 j := min_le_left _ _
      simp only [moveTrains_content, hcap]
      rw [roomKj] at htaken ⊢
      omega
  · exact hs

theorem handleLow_contentLaw (i : StoreIx) : Kept ContentLaw (handleLow i) := by
  intro s hs
  unfold handleLow; split
  · split
    · exact hs
    · exact moveTrains_contentLaw _ _ s hs
  · exact hs

theorem assignLate_quiet (x : TrainIx) (s : State) : Quiet s (assignLate x s) := by
  unfold assignLate; split
  · exact assignStore_quiet s x
  · exact .refl s

/-- R38 steps 1 to 4: the state before the store block's figures are formed. -/
def storesHandled (s : State) : State :=
  let full := StoreIx.all.foldl (fun sr i => handleFull (PerStore.ofFn (overflowOf s)) i sr) (moveHeat s, 0)
  eachTrain assignLate TrainIx.all (StoreIx.all.foldl (fun u i => handleLow i u) full.1)

/-- R38 steps 5 to 7 write the summary alone. -/
theorem storesSecond_eq (s : State) : ∃ v, storesSecond s = (storesHandled s).setSummary v := by
  have htwice : ∀ (u : State) (v w : HeatSummary), (u.setSummary v).setSummary w = u.setSummary w := fun _ _ _ => rfl
  unfold storesSecond computeTaper recomputePools
  simp only [htwice]
  exact ⟨_, rfl⟩

theorem storesHandled_contentLaw (s : State) : ContentLaw (storesHandled s) := by
  have hfull : ContentLaw (StoreIx.all.foldl (fun sr i => handleFull (PerStore.ofFn (overflowOf s)) i sr)
      (moveHeat s, 0)).1 :=
    List.foldlRecOn (motive := fun sr : State × Nat => ContentLaw sr.1) _ _ (moveHeat_contentLaw s)
      fun sr h i _ => handleFull_contentLaw _ i sr h
  have hlow := Kept.foldl (fun u i => handleLow i u) (fun i => handleLow_contentLaw i) StoreIx.all _ hfull
  exact (eachTrain_quiet _ assignLate (fun x u => assignLate_quiet x u) TrainIx.all).contentLaw hlow

theorem storesSecond_contentLaw : Kept ContentLaw storesSecond := fun s _ => by
  obtain ⟨v, hv⟩ := storesSecond_eq s
  rw [hv]
  exact contentLaw_setSummary v _ (storesHandled_contentLaw s)

/-- R39: a standing loss takes no more than the content. -/
theorem afterStandingLoss_le (loss c : Nat) : afterStandingLoss loss c ≤ c := by
  unfold afterStandingLoss; dsimp only
  split
  · exact le_rfl
  · split
    · exact Nat.zero_le _
    · exact Nat.sub_le _ _

theorem storesLoss_store (s : State) (i : StoreIx) : (storesLoss s).store i =
    { s.store i with contentKj := afterStandingLoss s.limits.loss (s.store i).contentKj } := by
  rw [storesLoss, State.store, State.withHeat_heat, PerStore.get_ofFn]

theorem storesLoss_contentLaw : Kept ContentLaw storesLoss := fun s =>
  contentLaw_of_le rfl fun i => by rw [storesLoss_store]; exact afterStandingLoss_le _ _

theorem trainsSecond_contentLaw : Kept ContentLaw trainsSecond := fun s hs =>
  contentLaw_ignores (by decide) (by decide) (touches_withTrains _ _)
    ((eachTrain_quiet s _ (fun x u => trainSecond_quiet u x) TrainIx.all).contentLaw hs)

theorem dispatchSecond_contentLaw : Kept ContentLaw dispatchSecond := by
  intro s hs
  rw [dispatchSecond_eq]
  have hformed := contentLaw_ignores (by decide) (by decide) (formTarget_touches s) hs
  exact contentLaw_ignores (by decide) (by decide) (meterSecond_touches _) ((dispatchTrains_quiet _).contentLaw hformed)

/-- R168: the trains stop, and no store's content moves. -/
theorem enteredSafe_contentLaw : Kept ContentLaw enteredSafe := by
  intro s hs
  have hstopped := (eachTrain_quiet s _ (fun x u => safeStop_quiet u x) TrainIx.all).contentLaw hs
  exact contentLaw_ignores (by decide) (by decide)
    ((releaseBoth_touches _ .safe).trans ((touches_withPort _ _).mono (by decide))) hstopped

theorem respondDue_contentLaw (d : Due) : Kept ContentLaw (respondDue d) := by
  have hframe : .heat ∉ partFields d.part → .limits ∉ partFields d.part → Kept ContentLaw (respondDue d) :=
    fun h hl s => contentLaw_ignores h hl (respondDue_frame d s)
  cases d with
  | second p =>
    cases p with
    | storesSecond => exact storesSecond_contentLaw
    | trainsSecond => exact trainsSecond_contentLaw
    | dispatchSecond => exact dispatchSecond_contentLaw
    | supervisionSecond =>
      exact supervisionSecond_kept (contentLaw_ignores (by decide) (by decide)) enteredSafe_contentLaw
    | storesLoss => exact fun s hs => hs
    | _ => exact hframe (by simp [Due.part, partFields]) (by simp [Due.part, partFields])
  | boundary b p =>
    cases p with
    | storesLoss => exact storesLoss_contentLaw
    | storesSecond | trainsSecond | dispatchSecond | supervisionSecond => exact fun s hs => hs
    | _ => exact hframe (by simp [Due.part, partFields]) (by simp [Due.part, partFields])

/-! ### Requests on stores and on their capacities (R40 to R42) -/

theorem ownStoreService_contentLaw (i d : Byte) : Kept ContentLaw (ownStoreService i d) := by
  intro s hs
  have hserved : ∀ j out, ContentLaw (serviceStore j out s) := fun j out =>
    (basisChange_quiet _).contentLaw (recomputePools_contentLaw _
      (contentLaw_setStore (v := { s.store j with isolated := out }) (hs j) hs))
  unfold ownStoreService; split
  · dsimp only
    by_cases hw : (s.store ‹_›).state ≠ (if ‹Bool› = true then .isolated else .available)
    · rw [if_pos hw]; exact hs
    · rw [if_neg hw]; exact hserved _ _
  · exact hs

theorem ownStoreSet_contentLaw (i : Byte) (v : Word) : Kept ContentLaw (ownStoreSet i v) := by
  intro s hs
  unfold ownStoreSet; split
  · exact hs
  · split
    · exact hs
    next hv =>
      split
      · exact hs
      · exact recomputePools_contentLaw _
          (contentLaw_setStore (Nat.mul_le_mul_right 1000 (Nat.not_lt.mp hv)) hs)

/-- R42: a parameter is written, and a store whose capacity falls below its content is cut to it. -/
theorem writeParam_contentLaw (p : Param) (v : Nat) : Kept ContentLaw (writeParam p v) := by
  intro s hs
  cases p with
  | capHs i =>
    intro j
    show (((s.withLimits _).setStore i _).store j).contentKj ≤ (s.limits.capHs.set i v).get j * 1000
    rw [setStore_store, PerStore.get_set]
    by_cases hj : j = i
    · rw [if_pos hj, if_pos hj]
      refine (min_le_right _ _).trans_eq ?_
      rw [capacityKj, capacityMj]
      exact congrArg (· * 1000) ((PerStore.get_set _ _ _ _).trans (if_pos rfl))
    · rw [if_neg hj, if_neg hj]
      exact hs j
  | _ => exact hs

theorem ownParamWrite_contentLaw (i : Byte) (v : Word) : Kept ContentLaw (ownParamWrite i v) := by
  intro s hs
  unfold ownParamWrite; split
  · exact hs
  · split
    · exact hs
    · split
      · exact writeParam_contentLaw _ _ s hs
      · exact hs

theorem ownPostReading_contentLaw (r : ReadingArgs) : Kept ContentLaw (ownPostReading r) := fun s =>
  contentLaw_of_le ((ownPostReading_touches s r).get .limits) fun i => by rw [ownPostReading_store]

/-! ### Every step -/

/-- Each command keeps the contents within the capacities. -/
theorem exec_contentLaw (c : Instr) (s t : State) (h : exec c s = .next t) (hs : ContentLaw s) : ContentLaw t := by
  have hport : Ignores ContentLaw readerFields := contentLaw_ignores (by decide) (by decide)
  have hevents : Ignores ContentLaw [.clock, .due, .port] := contentLaw_ignores (by decide) (by decide)
  have hmode : ∀ c : Instr, c.rulesMode = true → exec c s = .next t → ContentLaw t := fun c hc h =>
    exec_rulesMode_kept (contentLaw_ignores (by decide) (by decide)) enteredSafe_contentLaw hc h hs
  cases c with
  | powerOnReset lines =>
    obtain rfl := Host.Outcome.next.inj h
    exact afterReset_contentLaw lines.trip
  | secondEvent how => exact exec_events_kept hevents respondDue_contentLaw (.inl rfl) h hs
  | boundary how => exact exec_events_kept hevents respondDue_contentLaw (.inr (.inl rfl)) h hs
  | syncPulse how => exact exec_events_kept hevents respondDue_contentLaw (.inr (.inr rfl)) h hs
  | readyMaxExpiry x =>
    obtain rfl := Host.Outcome.next.inj h
    exact unlessHeld_kept (fun u hu => kept_ite (fun v => (enterStopping_quiet v x).contentLaw) hu) s hs
  | tripAssertion x =>
    obtain rfl := Host.Outcome.next.inj h
    exact unlessHeld_kept (fun u => (tripAssert_quiet u x).contentLaw) s hs
  | supervisionExpiry | lockLimits _ | keepalive _ | forceExpiry _ | resume _ | recover _ | enterHold _ | enterSafe _ =>
    exact hmode _ rfl h
  | postReading hd r =>
    obtain rfl := Host.Outcome.next.inj h
    exact takeRequest_kept hport (ownPostReading_contentLaw r) _ _ s hs
  | storeService hd i d =>
    obtain rfl := Host.Outcome.next.inj h
    exact takeRequest_kept hport (ownStoreService_contentLaw i d) _ _ s hs
  | storeSet hd i v =>
    obtain rfl := Host.Outcome.next.inj h
    exact takeRequest_kept hport (ownStoreSet_contentLaw i v) _ _ s hs
  | paramWrite hd i v =>
    obtain rfl := Host.Outcome.next.inj h
    exact takeRequest_kept hport (ownParamWrite_contentLaw i v) _ _ s hs
  | clockSet hd n d c =>
    obtain rfl := Host.Outcome.next.inj h
    exact takeRequest_kept hport
      (ownClockSet_kept hevents respondDue_contentLaw
        (fun n d c u => contentLaw_ignores (by decide) (by decide) (setClock_frame u n d c)) n d c) _ _ s hs
  | _ => exact exec_kept_of_frame (contentLaw_ignores (by simp [Instr.fields]) (by simp [Instr.fields])) h hs

/-- R33: every step keeps each store's content within its capacity. -/
theorem step_contentLaw {s t : State} (h : step s = .next t) (hs : ContentLaw s) : ContentLaw t :=
  step_kept (contentLaw_ignores (by decide) (by decide))
    (respondNext_kept (contentLaw_ignores (by decide) (by decide)) respondDue_contentLaw) exec_contentLaw h hs

end Machine
end Sys2Proof
end

section
/-! SUPPORT. O55, last two laws: at most one activation is ACTIVE, with levels up to 100, and the assembler holds what it may (R149,
R153 to R163). -/

namespace Sys2Proof.Machine

set_option Elab.async false

/-! ### One record (R153) -/

@[simp] theorem setAct_assembler (s : State) (d : Dir) (v : Activation) :
    (s.setAct d v).orders.assembler = s.orders.assembler := by cases d <;> rfl

@[simp] theorem releasedBy_state (why : ReleaseReason) (a : Activation) : (a.releasedBy why).state = .idle := by
  unfold Activation.releasedBy; split <;> simp_all

@[simp] theorem releasedBy_level (why : ReleaseReason) (a : Activation) : (a.releasedBy why).level = a.level := by
  unfold Activation.releasedBy; split <;> rfl

theorem setAct_self (s : State) (d : Dir) : s.setAct d (s.act d) = s := by cases d <;> rfl

/-- R153: a release writes the released record, and may raise ORDER. -/
theorem releaseAct_eq (d : Dir) (why : ReleaseReason) (s : State) :
    releaseAct d why s = s.setAct d ((s.act d).releasedBy why)
      ∨ releaseAct d why s = raise .order (s.setAct d ((s.act d).releasedBy why)) := by
  unfold releaseAct Activation.releasedBy; dsimp only
  cases hd : (s.act d).state with
  | idle => exact .inl (setAct_self s d).symm
  | confirming => exact .inl rfl
  | active =>
    by_cases hw : why = .restart
    · exact .inl (if_pos hw)
    · exact .inr (if_neg hw)

theorem releaseAct_act (d e : Dir) (why : ReleaseReason) (s : State) :
    (releaseAct d why s).act e = if e = d then (s.act d).releasedBy why else s.act e := by
  rcases releaseAct_eq d why s with h | h <;> rw [h] <;> simp

/-! ### What the receiver's operations keep -/

/-- From s to t each record keeps its level, and its state or becomes IDLE; the assembler stands. -/
structure Calm (s t : State) : Prop where
  assembler : t.orders.assembler = s.orders.assembler
  level : ∀ d, (t.act d).level = (s.act d).level
  state : ∀ d, (t.act d).state = (s.act d).state ∨ (t.act d).state = .idle

theorem Calm.of_orders_eq {s t : State} (h : t.orders = s.orders) : Calm s t := by
  have ha : ∀ d, t.act d = s.act d := fun d => by cases d <;> simp only [State.act, h]
  exact ⟨by rw [h], fun d => by rw [ha], fun d => .inl (by rw [ha])⟩

theorem Calm.of_touches {fs : List Field} {s t : State} (h : Touches fs s t) (ho : .orders ∉ fs := by decide) :
    Calm s t := .of_orders_eq (h .orders ho)

theorem Calm.refl (s : State) : Calm s s := .of_orders_eq rfl

theorem Calm.trans {s t u : State} (h : Calm s t) (k : Calm t u) : Calm s u where
  assembler := k.assembler.trans h.assembler
  level d := (k.level d).trans (h.level d)
  state d := by
    rcases k.state d with hk | hk
    · rw [hk]; exact h.state d
    · exact .inr hk

/-- One record written with its level, and its state or IDLE. -/
theorem setAct_calm {s : State} {d : Dir} {v : Activation} (hl : v.level = (s.act d).level)
    (hs : v.state = (s.act d).state ∨ v.state = .idle) : Calm s (s.setAct d v) where
  assembler := setAct_assembler s d v
  level e := by
    rw [setAct_act]; split
    next h => rw [hl, h]
    · rfl
  state e := by
    rw [setAct_act]; split
    next h => rw [h]; exact hs
    · exact .inl rfl

theorem raise_calm (n : Notice) (s : State) : Calm s (raise n s) := .of_orders_eq rfl

section
variable (s : State)

theorem releaseAct_calm (d : Dir) (why : ReleaseReason) : Calm s (releaseAct d why s) := by
  have h : Calm s (s.setAct d ((s.act d).releasedBy why)) :=
    setAct_calm (releasedBy_level _ _) (.inr (releasedBy_state _ _))
  rcases releaseAct_eq d why s with hr | hr <;> rw [hr]
  · exact h
  · exact h.trans (raise_calm _ _)

theorem calm_ite {p : Prop} [Decidable p] {t : State} (h : Calm s t) : Calm s (if p then t else s) := by
  split
  · exact h
  · exact .refl s

theorem eachDir_calm (f : Dir → State → State) (hf : ∀ d u, Calm u (f d u)) : Calm s (eachDir f s) :=
  (hf .up s).trans (hf .down _)

theorem releaseBoth_calm (why : ReleaseReason) : Calm s (releaseBoth why s) :=
  (releaseAct_calm s .up why).trans (releaseAct_calm _ .down why)

theorem endOnOther_calm (p : Option (Fin 8)) (d : Dir) : Calm s (endOnOther p d s) := calm_ite s (releaseAct_calm s d _)
theorem endOnPattern_calm (p : Fin 8) (d : Dir) : Calm s (endOnPattern p d s) := calm_ite s (releaseAct_calm s d _)
theorem endConfirming_calm (p : Fin 8) (d : Dir) : Calm s (endConfirming p d s) := calm_ite s (releaseAct_calm s d _)
theorem checkBacking_calm (n : Nat) (d : Dir) : Calm s (checkBacking n d s) := calm_ite s (releaseAct_calm s d _)

theorem setActClosing_calm (n : Nat) (d : Dir) : Calm s (setActClosing n d s) := setAct_calm rfl (.inl rfl)

theorem closeAct_calm (n : Nat) (d : Dir) : Calm s (closeAct n d s) := by
  have h : ∀ c x y, Calm s (s.setAct d { s.act d with closing := c, servedKj := x, requestedKj := y }) :=
    fun _ _ _ => setAct_calm rfl (.inl rfl)
  unfold closeAct; dsimp only
  split
  · exact .refl s
  · split
    · exact (h _ _ _).trans (raise_calm _ _)
    · exact h _ _ _

theorem actSecond_calm (d : Dir) : Calm s (actSecond d s) := by
  unfold actSecond; dsimp only
  split
  · exact .refl s
  · split
    · exact releaseAct_calm s d _
    · exact setAct_calm rfl (.inl rfl)
  · split
    · split
      · exact releaseAct_calm s d _
      · exact setAct_calm rfl (.inl rfl)
    · exact .refl s

theorem meterActivation_calm (z : Int) : Calm s (meterActivation z s) := by
  unfold meterActivation; split
  · exact .refl s
  · exact calm_ite s (setAct_calm rfl (.inl rfl))

/-! ### The responses -/

theorem ordersSecond_calm : Calm s (ordersSecond s) := eachDir_calm s _ fun d u => actSecond_calm u d

theorem ordersBoundary_calm (m n : Nat) : Calm s (ordersBoundary m n s) :=
  (eachDir_calm s _ fun d u => checkBacking_calm u n d).trans (eachDir_calm _ _ fun d u => closeAct_calm u m d)

theorem dispatchSecond_calm : Calm s (dispatchSecond s) := by
  rw [dispatchSecond_eq]
  exact ((Calm.of_touches (formTarget_touches s)).trans (.of_touches (dispatchTrains_quiet _).touches)).trans
    ((Calm.of_touches (touches_withDispatch _ _)).trans (meterActivation_calm _ _))

theorem takeClosings_calm (n : Nat) : Calm s (takeClosings n s) :=
  (Calm.of_touches (dispatchClose_touches s n)).trans (eachDir_calm _ _ fun d u => closeAct_calm u n d)

theorem tableBoundary_calm (m n : Nat) : Calm s (tableBoundary m n s) := by
  have h : ∀ v, Calm s ((takeClosings m s).setEntries v) :=
    fun v => (takeClosings_calm s m).trans (.of_touches (setEntries_touches _ v))
  unfold tableBoundary; dsimp only
  split
  · exact (h _).trans (raise_calm _ _)
  · exact h _

theorem enteredSafe_calm : Calm s (enteredSafe s) :=
  ((Calm.of_touches (eachTrain_quiet s _ (fun x u => safeStop_quiet u x) TrainIx.all).touches).trans
    (releaseBoth_calm _ .safe)).trans (.of_touches (touches_withPort _ _))

theorem setClock_calm (n d c : Nat) : Calm (settle true s) (setClock n d c s) := by
  unfold setClock; dsimp only
  exact (((Calm.of_touches (touches_withClock _ _)).trans (.of_touches (touches_withDispatch _ _))).trans
    (eachDir_calm _ _ fun d u => setActClosing_calm u _ d)).trans (.of_touches (basisChange_touches _))

end

/-! ### The commands, for a law that calm operations keep -/

/-- P holds on after every calm operation. -/
def KeptByCalm (P : State → Prop) : Prop := ∀ ⦃s t⦄, Calm s t → P s → P t

section
variable {P : State → Prop} (hcalm : KeptByCalm P)
include hcalm

theorem KeptByCalm.ignores {fs : List Field} (h : .orders ∉ fs) : Ignores P fs := fun _ _ hf => hcalm (.of_touches hf h)

theorem KeptByCalm.respondDue (d : Due) : Kept P (respondDue d) := by
  have hframe : .orders ∉ partFields d.part → Kept P (Machine.respondDue d) :=
    fun h s => hcalm.ignores h (respondDue_frame d s)
  cases d with
  | second p =>
    cases p with
    | dispatchSecond => exact fun s => hcalm (dispatchSecond_calm s)
    | ordersSecond => exact fun s => hcalm (ordersSecond_calm s)
    | supervisionSecond =>
      exact supervisionSecond_kept (hcalm.ignores (by decide)) fun s => hcalm (enteredSafe_calm s)
    | tableBoundary | ordersBoundary => exact fun s hs => hs
    | _ => exact hframe (by simp [Due.part, partFields])
  | boundary b p =>
    cases p with
    | tableBoundary => exact fun s => hcalm (tableBoundary_calm s _ _)
    | ordersBoundary => exact fun s => hcalm (ordersBoundary_calm s _ _)
    | dispatchSecond | ordersSecond | supervisionSecond => exact fun s hs => hs
    | _ => exact hframe (by simp [Due.part, partFields])

theorem ownOrderRelease_kept (b : Byte) : Kept P (ownOrderRelease b) := by
  intro s hs
  have hport : Ignores P [.port] := hcalm.ignores (by decide)
  unfold ownOrderRelease; split
  · exact hport (answer_touches _ _ _ _) hs
  · exact hport (answer_touches _ _ _ _)
      (Kept.foldl (fun u d => releaseAct d .request u) (fun d u => hcalm (releaseAct_calm u d _)) _ s hs)

theorem ownPatternWrite_kept (a : PatternArgs) : Kept P (ownPatternWrite a) := by
  intro s hs
  have hport : Ignores P [.port] := hcalm.ignores (by decide)
  unfold ownPatternWrite; split
  · exact hport (answer_touches _ _ _ _) hs
  · split
    · exact hport (answer_touches _ _ _ _) hs
    next i q _ _ =>
      have hwrite : Calm s (s.withOrders { s.orders with patterns := s.orders.patterns.set i q }) :=
        ⟨rfl, fun d => by cases d <;> rfl, fun d => .inl (by cases d <;> rfl)⟩
      exact hport (answer_touches _ _ _ _) (hcalm hwrite hs)

theorem ownRestart_kept (hrestart : Kept P restartOrders) : Kept P ownRestart := by
  intro s hs
  have horders : P (restartOrders (restartPort s)) :=
    hrestart _ (hcalm.ignores (fs := [.port]) (by decide) (touches_withPort s _) hs)
  have hrest : Touches [.supervision, .proj, .port] (restartOrders (restartPort s)) (ownRestart s) :=
    Touches.comp ((restartSupervision_touches _).comp (restartEngine_touches _) :
      Touches [.supervision, .proj] (restartOrders (restartPort s)) _) (answer_touches _ _ _ _)
  exact hcalm.ignores (by decide) hrest horders

/-- A law that calm operations keep is kept by every command, if bytes, gaps, RESTART and power-on reset keep it. -/
theorem KeptByCalm.exec (hbyte : ∀ v f, Kept P (takeOrderByte v f)) (hdiscard : Kept P discardTelegram)
    (hrestart : Kept P restartOrders) (hreset : ∀ lines t, t.orders = (State.afterReset lines).orders → P t)
    (c : Instr) (s t : State) (h : Machine.exec c s = .next t) (hs : P s) : P t := by
  have hport : Ignores P readerFields := hcalm.ignores (by decide)
  have hevents : Ignores P [.clock, .due, .port] := hcalm.ignores (by decide)
  have hmode : ∀ c : Instr, c.rulesMode = true → Machine.exec c s = .next t → P t := fun c hc h =>
    exec_rulesMode_kept (hcalm.ignores (by decide)) (fun s => hcalm (enteredSafe_calm s)) hc h hs
  cases c with
  | powerOnReset lines =>
    obtain rfl := Host.Outcome.next.inj h
    exact hreset lines.trip _ rfl
  | secondEvent how => exact exec_events_kept hevents hcalm.respondDue (.inl rfl) h hs
  | boundary how => exact exec_events_kept hevents hcalm.respondDue (.inr (.inl rfl)) h hs
  | syncPulse how => exact exec_events_kept hevents hcalm.respondDue (.inr (.inr rfl)) h hs
  | confirmWindowExpiry d =>
    obtain rfl := Host.Outcome.next.inj h
    exact unlessHeld_kept (fun u hu => kept_ite (fun v => hcalm (releaseAct_calm v d _)) hu) s hs
  | holdExpiry d =>
    obtain rfl := Host.Outcome.next.inj h
    exact unlessHeld_kept (fun u hu => kept_ite (fun v => hcalm (releaseAct_calm v d _)) hu) s hs
  | orderByte v f =>
    obtain rfl := Host.Outcome.next.inj h
    exact unlessHeld_kept (hbyte v f) s hs
  | telegramGapTimeout =>
    obtain rfl := Host.Outcome.next.inj h
    refine unlessHeld_kept (fun u hu => ?_) s hs
    split
    · exact hu
    · exact hdiscard u hu
  | supervisionExpiry | lockLimits _ | keepalive _ | forceExpiry _ | resume _ | recover _ | enterHold _ | enterSafe _ =>
    exact hmode _ rfl h
  | patternWrite hd a =>
    obtain rfl := Host.Outcome.next.inj h
    exact takeRequest_kept hport (ownPatternWrite_kept hcalm a) _ _ s hs
  | orderRelease hd b =>
    obtain rfl := Host.Outcome.next.inj h
    exact takeRequest_kept hport (ownOrderRelease_kept hcalm b) _ _ s hs
  | restart hd =>
    obtain rfl := Host.Outcome.next.inj h
    exact takeRequest_kept hport (ownRestart_kept hcalm hrestart) _ _ s hs
  | clockSet hd n d c =>
    obtain rfl := Host.Outcome.next.inj h
    exact takeRequest_kept hport
      (ownClockSet_kept hevents hcalm.respondDue (fun n d c u => hcalm (setClock_calm u n d c)) n d c) _ _ s hs
  | _ => exact exec_kept_of_frame (hcalm.ignores (by simp [Instr.fields])) h hs

end

/-! ### Activations (R155) -/

/-- R155: of the two records one at most is ACTIVE, and no level is above 100. -/
theorem activationLaw_iff (s : State) : ActivationLaw s ↔
    (∀ d : Dir, (s.act d).state = .active → (s.act d.opposite).state ≠ .active) ∧ ∀ d, (s.act d).level ≤ 100 := by
  constructor
  · rintro ⟨hone, hup, hdown⟩
    exact ⟨fun d ha hb => by cases d; exacts [hone ⟨ha, hb⟩, hone ⟨hb, ha⟩], fun d => by cases d; exacts [hup, hdown]⟩
  · rintro ⟨hone, hlevel⟩
    exact ⟨fun h => hone .up h.1 h.2, hlevel .up, hlevel .down⟩

theorem activationLaw_calm : KeptByCalm ActivationLaw := by
  intro s t hc hs
  obtain ⟨hone, hlevel⟩ := (activationLaw_iff s).mp hs
  have hactive : ∀ d, (t.act d).state = .active → (s.act d).state = .active := fun d h => by
    rcases hc.state d with hd | hd
    · rw [← hd]; exact h
    · rw [hd] at h; exact absurd h nofun
  exact (activationLaw_iff t).mpr
    ⟨fun d h ho => hone d (hactive d h) (hactive _ ho), fun d => (hc.level d).trans_le (hlevel d)⟩

theorem Dir.opposite_ne (d : Dir) : d.opposite ≠ d := by cases d <;> decide

theorem Dir.eq_or_opposite (d e : Dir) : e = d ∨ e = d.opposite := by cases d <;> cases e <;> decide

/-- R155: one record may become ACTIVE while the other is not. -/
theorem activationLaw_setAct {s : State} {d : Dir} {v : Activation} (hv : v.level ≤ 100)
    (ho : (s.act d.opposite).state ≠ .active) (hs : ActivationLaw s) : ActivationLaw (s.setAct d v) := by
  obtain ⟨-, hlevel⟩ := (activationLaw_iff s).mp hs
  have hother : d.opposite ≠ d := Dir.opposite_ne d
  refine (activationLaw_iff _).mpr ⟨fun e he hoe => ?_, fun e => ?_⟩
  · rcases Dir.eq_or_opposite d e with rfl | rfl
    · rw [setAct_act, if_neg hother] at hoe
      exact ho hoe
    · rw [setAct_act, if_neg hother] at he
      exact ho he
  · rw [setAct_act]; split
    · exact hv
    · exact hlevel e

theorem moveOwn_activationLaw {s : State} (d : Dir) (p : Fin 8) {level : Nat} (hl : level ≤ 100)
    (ho : (s.act d.opposite).state ≠ .active) (hs : ActivationLaw s) : ActivationLaw (moveOwn d p level s) := by
  have hraise : ∀ u, ActivationLaw u → ActivationLaw (raise .order u) :=
    fun u => activationLaw_calm (raise_calm _ u)
  unfold moveOwn; dsimp only
  split
  · split
    · exact activationLaw_setAct hl ho hs
    · exact hraise _ (activationLaw_setAct hl ho hs)
  · exact hraise _ (activationLaw_setAct hl ho hs)
  · exact activationLaw_setAct hl ho hs

theorem activate_activationLaw (d : Dir) (p : Fin 8) {level : Nat} (hl : level ≤ 100) :
    Kept ActivationLaw (activate d p level) := by
  intro s hs
  unfold activate; split
  · exact activationLaw_calm (releaseAct_calm s d _) hs
  · split
    · exact activationLaw_calm (raise_calm _ s) hs
    · refine moveOwn_activationLaw d p hl ?_ (activationLaw_calm (releaseAct_calm s _ _) hs)
      rw [releaseAct_act, if_pos rfl, releasedBy_state]
      decide

theorem carryOut_activationLaw (p : Fin 8) {level : Nat} (hl : level ≤ 100) :
    Kept ActivationLaw (carryOut p level) := by
  intro s hs
  unfold carryOut; split
  · exact activate_activationLaw .up p hl s hs
  · exact activate_activationLaw .down p hl s hs
  · exact activationLaw_calm (releaseAct_calm s _ _) hs
  · exact activationLaw_calm (releaseAct_calm s _ _) hs
  · exact activationLaw_calm (releaseBoth_calm s _) hs

/-- Counters and the assembler are no record's. -/
theorem activationLaw_withOrders {s : State} {o : Orders} (hu : o.up = s.orders.up) (hd : o.down = s.orders.down)
    (hs : ActivationLaw s) : ActivationLaw (s.withOrders o) := by
  unfold ActivationLaw
  rw [State.withOrders_orders, hu, hd]
  exact hs

/-- The records after the steps of a telegram that end other activations (R154). -/
theorem endings_calm (p : Fin 8) (s : State) :
    Calm s (eachDir (endConfirming p) (eachDir (endOnPattern p) (eachDir (endOnOther (some p)) s))) :=
  ((eachDir_calm s _ fun d u => endOnOther_calm u _ d).trans (eachDir_calm _ _ fun d u => endOnPattern_calm u p d)).trans
    (eachDir_calm _ _ fun d u => endConfirming_calm u p d)

theorem takeTelegram_activationLaw (a b : Byte) {level : Nat} (hl : level ≤ 100) :
    Kept ActivationLaw (takeTelegram a b level) := by
  intro s hs
  have hcount : ActivationLaw (s.withOrders { s.orders with received := countUp s.orders.received }) :=
    activationLaw_withOrders rfl rfl hs
  unfold takeTelegram; dsimp only
  split
  · exact activationLaw_calm (eachDir_calm _ _ fun d u => endOnOther_calm u _ d) (activationLaw_withOrders rfl rfl hcount)
  · exact carryOut_activationLaw _ hl _ (activationLaw_calm (endings_calm _ _) hcount)

theorem takeOrderByte_activationLaw (v : Byte) (f : Bool) : Kept ActivationLaw (takeOrderByte v f) := by
  intro s hs
  have hset : ∀ x, ActivationLaw (s.setAssembler x) := fun x => activationLaw_withOrders rfl rfl hs
  have hdiscard : ActivationLaw (discardTelegram s) := activationLaw_withOrders rfl rfl hs
  unfold takeOrderByte; split
  · split
    · exact hset _
    · exact hs
  · split
    · exact hdiscard
    · split
      · unfold checkTelegram; split
        · exact takeTelegram_activationLaw _ _ (min_le_left _ _) _ (hset _)
        · exact hdiscard
      · exact hset _

theorem step_activationLaw {s t : State} (h : step s = .next t) (hs : ActivationLaw s) : ActivationLaw t := by
  refine step_kept (activationLaw_calm.ignores (by decide))
    (respondNext_kept (activationLaw_calm.ignores (by decide)) activationLaw_calm.respondDue)
    (activationLaw_calm.exec takeOrderByte_activationLaw (fun u hu => activationLaw_withOrders rfl rfl hu)
      (fun u hu => activationLaw_withOrders rfl rfl (activationLaw_calm (releaseBoth_calm u _) hu))
      fun lines u hu => ?_) h hs
  unfold ActivationLaw
  rw [hu]
  exact afterReset_activationLaw lines

/-! ### The assembler (R149) -/

theorem assemblerLaw_of_eq {s t : State} (h : t.orders.assembler = s.orders.assembler) (hs : AssemblerLaw s) :
    AssemblerLaw t := by
  unfold AssemblerLaw
  rw [h]
  exact hs

theorem assemblerLaw_of_hunting {t : State} (h : t.orders.assembler = .hunting) : AssemblerLaw t := by
  unfold AssemblerLaw
  rw [h]
  trivial

theorem assemblerLaw_of_collecting {t : State} {held : List Byte} (h : t.orders.assembler = .collecting held)
    (hl : 1 ≤ held.length ∧ held.length ≤ 4 ∧ held.head? = some 0xC3#8) : AssemblerLaw t := by
  unfold AssemblerLaw
  rw [h]
  exact hl

theorem assemblerLaw_calm : KeptByCalm AssemblerLaw := fun _ _ hc => assemblerLaw_of_eq hc.assembler

theorem moveOwn_assembler (d : Dir) (p : Fin 8) (level : Nat) (s : State) :
    (moveOwn d p level s).orders.assembler = s.orders.assembler := by
  have hraise : ∀ u : State, (raise .order u).orders = u.orders := fun _ => rfl
  unfold moveOwn; dsimp only
  split
  · split <;> simp only [hraise, setAct_assembler]
  · simp only [hraise, setAct_assembler]
  · simp only [setAct_assembler]

theorem activate_assembler (d : Dir) (p : Fin 8) (level : Nat) (s : State) :
    (activate d p level s).orders.assembler = s.orders.assembler := by
  unfold activate; split
  · exact (releaseAct_calm s d _).assembler
  · split
    · rfl
    · exact (moveOwn_assembler _ _ _ _).trans (releaseAct_calm s _ _).assembler

theorem carryOut_assembler (p : Fin 8) (level : Nat) (s : State) :
    (carryOut p level s).orders.assembler = s.orders.assembler := by
  unfold carryOut; split
  · exact activate_assembler _ _ _ s
  · exact activate_assembler _ _ _ s
  · exact (releaseAct_calm s _ _).assembler
  · exact (releaseAct_calm s _ _).assembler
  · exact (releaseBoth_calm s _).assembler

theorem takeTelegram_assembler (a b : Byte) (level : Nat) (s : State) :
    (takeTelegram a b level s).orders.assembler = s.orders.assembler := by
  unfold takeTelegram; dsimp only
  split
  · exact (eachDir_calm _ _ fun d u => endOnOther_calm u _ d).assembler
  · exact (carryOut_assembler _ _ _).trans (endings_calm _ _).assembler

/-- R149: a byte begins a telegram, is held as one of its first four, or ends it. -/
theorem takeOrderByte_assemblerLaw (v : Byte) (f : Bool) : Kept AssemblerLaw (takeOrderByte v f) := by
  intro s hs
  unfold takeOrderByte; split
  · split
    next hv => exact assemblerLaw_of_collecting rfl (by simp [hv.1])
    · exact hs
  next held hheld =>
    split
    · exact assemblerLaw_of_hunting rfl
    · split
      · unfold checkTelegram; split
        · exact assemblerLaw_of_hunting (takeTelegram_assembler _ _ _ _)
        · exact assemblerLaw_of_hunting rfl
      next hlen =>
        unfold AssemblerLaw at hs
        rw [hheld] at hs
        obtain ⟨hone, hfour, hsync⟩ := hs
        have hthree : held.length ≠ 4 := fun h => by
          match held, h with
          | [a, b, c, d], _ => exact hlen a b c d rfl
        refine assemblerLaw_of_collecting rfl ⟨by simp, ?_, ?_⟩
        · rw [List.length_append, List.length_singleton]; omega
        · rw [List.head?_append, hsync]; rfl

theorem step_assemblerLaw {s t : State} (h : step s = .next t) (hs : AssemblerLaw s) : AssemblerLaw t :=
  step_kept (assemblerLaw_calm.ignores (by decide))
    (respondNext_kept (assemblerLaw_calm.ignores (by decide)) assemblerLaw_calm.respondDue)
    (assemblerLaw_calm.exec takeOrderByte_assemblerLaw (fun _ _ => assemblerLaw_of_hunting rfl)
      (fun _ _ => assemblerLaw_of_hunting rfl) fun lines u hu => assemblerLaw_of_hunting (congrArg Orders.assembler hu))
    h hs

end Sys2Proof.Machine
end

section
open Sys2Proof Sys2Proof.Machine

set_option Elab.async false

/-- Settles O55: each law by itself, since no command lets one lean on another. -/
theorem stepKeepsRanges : Obligations.StepKeepsRanges := fun _ _ h =>
  ⟨step_accountLaw h, step_contentLaw h, step_activationLaw h, step_assemblerLaw h⟩

end

section
/-! SUPPORT. The orders in which blocks respond (logs 2, 24): every response occurs once, and a second or a boundary in which none is put
off is a run through such an order. -/

namespace Sys2Proof.Machine

set_option Elab.async false

/-! ### Every response once -/

theorem mem_firsts (p : Part) : ∀ l : List Part, p ∈ firsts l ↔ p ∈ l
  | [] => Iff.rfl
  | q :: l => by
    by_cases h : p = q
    · simp [firsts, h]
    · simp [firsts, h, mem_firsts p l]

theorem nodup_firsts : ∀ l : List Part, (firsts l).Nodup
  | [] => .nil
  | q :: l => by
    rw [firsts, List.nodup_cons]
    exact ⟨by simp, (nodup_firsts l).filter _⟩

theorem mem_fullOrder (order : List Part) (p : Part) : p ∈ fullOrder order := by
  rw [fullOrder, mem_firsts, List.append_assoc, List.mem_append]
  exact .inr (by cases p <;> decide)

theorem nodup_fullOrder (order : List Part) : (fullOrder order).Nodup := nodup_firsts _

/-- Every part lies in its order between parts that differ from it. -/
theorem split_of_nodup {l : List Part} {p : Part} (hp : p ∈ l) (hl : l.Nodup) :
    ∃ l₁ l₂, l = l₁ ++ p :: l₂ ∧ p ∉ l₁ ∧ p ∉ l₂ := by
  obtain ⟨l₁, l₂, rfl⟩ := List.append_of_mem hp
  have h := List.nodup_append.mp hl
  exact ⟨l₁, l₂, rfl, fun hm => h.2.2 _ hm _ (List.mem_cons_self ..) rfl, (List.nodup_cons.mp h.2.1).1⟩

theorem mem_boundaryOrder (order : List Part) (p : Part) : p ∈ boundaryOrder order ↔ answersSecond p = false := by
  simp [boundaryOrder, mem_fullOrder]

theorem nodup_boundaryOrder (order : List Part) : (boundaryOrder order).Nodup := (nodup_fullOrder order).filter _

/-- The responses to a second, in order. -/
def secondOrder (order : List Part) : List Part := (fullOrder order).filter answersSecond

theorem mem_secondOrder (order : List Part) (p : Part) : p ∈ secondOrder order ↔ answersSecond p = true := by
  simp [secondOrder, mem_fullOrder]

theorem nodup_secondOrder (order : List Part) : (secondOrder order).Nodup := (nodup_fullOrder order).filter _

/-- The order about the clock's own response. -/
theorem order_about_clock (order : List Part) : ∃ l₁ l₂, fullOrder order = l₁ ++ .clockSecond :: l₂
    ∧ .clockSecond ∉ l₁ ∧ .clockSecond ∉ l₂ ∧ beforeClock order = l₁.filter answersSecond
    ∧ afterClock order = l₂ ++ l₁.filter fun p => !answersSecond p := by
  obtain ⟨l₁, l₂, hl, h₁, h₂⟩ := split_of_nodup (mem_fullOrder order .clockSecond) (nodup_fullOrder order)
  have hall : ∀ p ∈ l₁, decide (p ≠ .clockSecond) = true := fun p hp => by
    simpa using fun h : p = .clockSecond => h₁ (h ▸ hp)
  have htake : (fullOrder order).takeWhile (· ≠ .clockSecond) = l₁ := by
    rw [hl, List.takeWhile_append_of_pos hall]; simp
  have hdrop : (fullOrder order).dropWhile (· ≠ .clockSecond) = .clockSecond :: l₂ := by
    rw [hl, List.dropWhile_append_of_pos hall]; simp
  have hrest : (Part.clockSecond :: l₂).filter (· ≠ .clockSecond) = l₂ := by
    rw [List.filter_cons_of_neg (by simp), List.filter_eq_self]
    exact fun p hp => by simpa using fun h : p = .clockSecond => h₂ (h ▸ hp)
  refine ⟨l₁, l₂, hl, h₁, h₂, ?_, ?_⟩
  · rw [beforeClock, htake]
  · rw [afterClock, hdrop, hrest, htake]

/-! ### A run through an order -/

/-- The responses of some parts, made in turn. -/
def run (f : Part → State → State) (ps : List Part) (s : State) : State := ps.foldl (fun u p => f p u) s

section
variable {f : Part → State → State}

theorem run_append (l₁ l₂ : List Part) (s : State) : run f (l₁ ++ l₂) s = run f l₂ (run f l₁ s) := List.foldl_append ..

theorem run_cons (p : Part) (l : List Part) (s : State) : run f (p :: l) s = run f l (f p s) := rfl

/-- What relates a state to what each response of an order leaves of it relates it to what the order leaves. -/
theorem run_rel {R : State → State → Prop} (hrefl : ∀ u, R u u) (htrans : ∀ u v w, R u v → R v w → R u w) :
    ∀ (ps : List Part), (∀ p ∈ ps, ∀ u, R u (f p u)) → ∀ s, R s (run f ps s)
  | [], _, s => hrefl s
  | p :: ps, h, s => htrans _ _ _ (h p (List.mem_cons_self ..) s)
      (run_rel hrefl htrans ps (fun q hq => h q (List.mem_cons_of_mem _ hq)) (f p s))

/-- A figure that no response of an order moves stands through it. -/
theorem run_keeps {α : Type} (g : State → α) (ps : List Part) (h : ∀ p ∈ ps, ∀ u, g (f p u) = g u) (s : State) :
    g (run f ps s) = g s :=
  run_rel (R := fun u v => g v = g u) (fun _ => rfl) (fun _ _ _ h k => k.trans h) ps h s

/-- A law that every response of an order keeps is kept by the order. -/
theorem run_kept {P : State → Prop} (ps : List Part) (h : ∀ p ∈ ps, Kept P (f p)) : Kept P (run f ps) := fun s =>
  run_rel (R := fun u v => P u → P v) (fun _ h => h) (fun _ _ _ h k => k ∘ h) ps h s

theorem run_touches {fs : List Field} (ps : List Part) (h : ∀ p ∈ ps, ∀ u, Touches fs u (f p u)) (s : State) :
    Touches fs s (run f ps s) := run_rel (Touches.same fs) (fun _ _ _ => Touches.trans) ps h s

end

theorem respondAll_map (d : Part → Due) (ps : List Part) (s : State) :
    respondAll (ps.map d) s = run (fun p => respondDue (d p)) ps s := List.foldl_map ..

/-- With none put off the responses are made in turn. -/
theorem respondOrPutOff_none (ds : List Due) (s : State) : respondOrPutOff [] ds s = respondAll ds s := by
  have hnone : (ds.filter fun d => ([] : List Part).contains d.part) = [] := by simp
  have hall : (ds.filter fun d => !([] : List Part).contains d.part) = ds := by simp
  rw [respondOrPutOff, hnone, hall, List.append_nil]
  rfl

/-! ### A second that ends no interval (R128) -/

/-- A block's response to a second, the clock's own among them. -/
def secondResponse (p : Part) (s : State) : State :=
  match p with
  | .clockSecond => clockSecond s
  | p => respondSecond p s

theorem secondResponse_of_ne {p : Part} (h : p ≠ .clockSecond) : secondResponse p = respondSecond p := by
  cases p with
  | clockSecond => exact absurd rfl h
  | _ => rfl

theorem respondSecond_other {p : Part} (h : answersSecond p = false) (s : State) : respondSecond p s = s := by
  cases p <;> simp_all [answersSecond, respondSecond]

/-- What a response to a second may touch. -/
def secondFields (p : Part) : List Field :=
  if p = .clockSecond then [.clock] else if answersSecond p then partFields p else []

theorem secondResponse_frame (p : Part) (s : State) : Touches (secondFields p) s (secondResponse p s) := by
  unfold secondFields; split
  next h => rw [h]; exact clockSecond_touches s
  next h =>
    rw [secondResponse_of_ne h]
    split
    · exact respondSecond_frame p s
    next hp => rw [respondSecond_other (by simpa using hp)]; exact Touches.refl s

/-- A response that is due after the clock's own is one of the parts of that order. -/
theorem part_mem_afterClock {order : List Part} {raised : Option Turn} {d : Due} (h : d ∈ duesAfterClock order raised) :
    d.part ∈ afterClock order := by
  obtain ⟨p, hp, hd⟩ := List.mem_flatMap.mp h
  cases hs : answersSecond p
  · cases raised with
    | none => simp [hs] at hd
    | some b =>
      simp only [hs, Bool.false_eq_true, if_false, List.mem_singleton] at hd
      rw [hd]; exact hp
  · simp only [hs, if_true, List.mem_singleton] at hd
    rw [hd]; exact hp

theorem settleForSecond_nothing {s : State} (h : s.due = []) : settleForSecond s = s := by
  unfold settleForSecond
  rw [settle_nothing s false h]; dsimp only
  split
  · exact settle_nothing s true h
  · rfl

/-- The clock and the limits as the responses before the clock's own leave them. -/
theorem run_respondSecond_clock (ps : List Part) (s : State) :
    (run respondSecond ps s).clock = s.clock ∧ (run respondSecond ps s).limits = s.limits
      ∧ (run respondSecond ps s).due = s.due :=
  have h := run_touches ps (fun p _ u => respondSecond_touches u p) s
  ⟨h.get .clock, h.get .limits, h.get .due⟩

theorem secondEnds_of_eq {s t : State} (hc : t.clock = s.clock) (hl : t.limits = s.limits) :
    secondEnds t = secondEnds s := by rw [secondEnds, hc, hl, secondEnds]

/-- A second that ends no interval, with nothing due and nothing put off, is a run through the order. -/
theorem secondNow_inside {order : List Part} {s : State} (hd : s.due = []) (he : secondEnds s = false) :
    secondNow ⟨order, []⟩ s = run secondResponse (secondOrder order) s := by
  obtain ⟨l₁, l₂, hl, h₁, h₂, hb, ha⟩ := order_about_clock order
  have hne : ∀ {l : List Part}, .clockSecond ∉ l → ∀ u,
      run respondSecond (l.filter answersSecond) u = run secondResponse (l.filter answersSecond) u := by
    intro l hl u
    refine List.foldl_ext _ _ _ fun v p hp => ?_
    rw [secondResponse_of_ne fun h => hl (h ▸ (List.mem_filter.mp hp).1)]
  obtain ⟨hclock, hlimits, -⟩ := run_respondSecond_clock (l₁.filter answersSecond) s
  have hraised : turnRaised (run respondSecond (l₁.filter answersSecond) s) = none := by
    rw [turnRaised, secondEnds_of_eq hclock hlimits, he]; rfl
  have hdues : duesAfterClock order none = (l₂.filter answersSecond).map .second := by
    have hcons : ∀ l : List Part, (l.flatMap fun p => if answersSecond p then [Due.second p] else []) =
        (l.filter answersSecond).map .second := fun l => by
      induction l with
      | nil => rfl
      | cons p l ih => cases hp : answersSecond p <;> simp [hp, ih]
    rw [duesAfterClock, ha]
    simp only [hcons]
    simp
  rw [secondNow]
  simp only [respondOrPutOff_none, settleForSecond_nothing hd, hb, respondAll_map]
  show respondAll (duesAfterClock order (turnRaised (run respondSecond _ s))) (clockSecond (run respondSecond _ s)) = _
  rw [hraised, hdues, respondAll_map, secondOrder, hl, List.filter_append, run_append,
    List.filter_cons_of_pos (by rfl), run_cons, ← hne h₁, ← hne h₂]
  rfl

end Sys2Proof.Machine
end

section
/-! SUPPORT. O16: what each response to a second leaves of the port, the heater cycles, the trains and the records, and what becomes of
the mode and the supervision timer (R101, R117, R158, R168, R176, R178). -/

namespace Sys2Proof.Machine

set_option Elab.async false

/-! ### The port through a second -/

section
variable (s : State)

theorem releaseAct_portGrows (d : Dir) (why : ReleaseReason) : PortGrows s (releaseAct d why s) := by
  have h : PortGrows s (s.setAct d ((s.act d).releasedBy why)) := .of_touches (setAct_touches s d _)
  rcases releaseAct_eq d why s with hr | hr <;> rw [hr]
  · exact h
  · exact h.trans (raise_portGrows _ _)

theorem eachDir_portGrows (f : Dir → State → State) (hf : ∀ d u, PortGrows u (f d u)) : PortGrows s (eachDir f s) :=
  (hf .up s).trans (hf .down _)

theorem actSecond_portGrows (d : Dir) : PortGrows s (actSecond d s) := by
  have h : ∀ v, PortGrows s (s.setAct d v) := fun v => .of_touches (setAct_touches s d v)
  unfold actSecond; dsimp only
  split
  · exact .refl s
  · split
    · exact releaseAct_portGrows s d _
    · exact h _
  · split
    · split
      · exact releaseAct_portGrows s d _
      · exact h _
    · exact .refl s

theorem dispatchSecond_portGrows : PortGrows s (dispatchSecond s) := by
  rw [dispatchSecond_eq]
  exact ((PortGrows.of_touches (formTarget_touches s)).trans (dispatchTrains_quiet _).port).trans
    (.of_touches (meterSecond_touches _))

theorem trainsSecond_portGrows : PortGrows s (trainsSecond s) :=
  (eachTrain_quiet s _ (fun x u => trainSecond_quiet u x) TrainIx.all).port.trans (.of_touches (touches_withTrains _ _))

/-- Of the responses to a second only that of supervision may write the mask, and none loses a notice. -/
theorem secondResponse_portGrows {p : Part} (h : p ≠ .supervisionSecond) : PortGrows s (secondResponse p s) := by
  cases p with
  | trainsSecond => exact trainsSecond_portGrows s
  | dispatchSecond => exact dispatchSecond_portGrows s
  | ordersSecond => exact eachDir_portGrows s _ fun d u => actSecond_portGrows u d
  | supervisionSecond => exact absurd rfl h
  | accountSecond => exact .of_touches (accountSecond_touches s)
  | storesSecond => exact .of_touches (storesSecond_touches s)
  | clockSecond => exact .of_touches (clockSecond_touches s)
  | _ => exact .refl s

/-! ### The heater cycles (R101) -/

/-- The cycles of both heater timers. -/
def heaterCycles : Cycle × Cycle := (s.trains.timerA, s.trains.timerB)

theorem heaterCycles_of_trains {s t : State} (h : t.trains = s.trains) : heaterCycles t = heaterCycles s := by
  rw [heaterCycles, h, heaterCycles]

theorem Quiet.heaterCycles {s t : State} (h : Quiet s t) : heaterCycles t = Machine.heaterCycles s :=
  Prod.ext h.timers.1 h.timers.2

theorem trainsSecond_cycles : heaterCycles (trainsSecond s) =
    (s.trains.timerA.advance, s.trains.timerB.advance) := by
  obtain ⟨ha, hb⟩ := (eachTrain_quiet s _ (fun x u => trainSecond_quiet u x) TrainIx.all).timers
  exact Prod.ext (congrArg Cycle.advance ha) (congrArg Cycle.advance hb)

theorem enteredSafe_cycles : heaterCycles (enteredSafe s) = heaterCycles s := by
  have hstopped := eachTrain_quiet s _ (fun x u => safeStop_quiet u x) TrainIx.all
  have hrest : Touches [.orders, .port] (eachTrain safeStop TrainIx.all s) (enteredSafe s) :=
    (releaseBoth_touches _ .safe).trans ((touches_withPort _ _).mono (by decide))
  exact (heaterCycles_of_trains (hrest.get .trains)).trans hstopped.heaterCycles

/-- The cycles stand through every response but the sequencer's. -/
theorem secondResponse_cycles {p : Part} (h : p ≠ .trainsSecond) :
    heaterCycles (secondResponse p s) = heaterCycles s := by
  have hframe : .trains ∉ secondFields p → heaterCycles (secondResponse p s) = heaterCycles s :=
    fun h => heaterCycles_of_trains (secondResponse_frame p s .trains h)
  cases p with
  | trainsSecond => exact absurd rfl h
  | trainsDay => rfl
  | dispatchSecond =>
    have hformed := heaterCycles_of_trains ((formTarget_touches s).get .trains)
    have hmetered := heaterCycles_of_trains ((meterSecond_touches (dispatchTrains (formTarget s))).get .trains)
    exact (hmetered.trans (dispatchTrains_quiet _).heaterCycles).trans hformed
  | supervisionSecond =>
    have hkept : Kept (fun u => heaterCycles u = heaterCycles s) supervisionSecond :=
      supervisionSecond_kept (fun u v hf hu => (heaterCycles_of_trains (hf .trains (by decide))).trans hu)
        fun u hu => (enteredSafe_cycles u).trans hu
    exact hkept s rfl
  | _ => exact hframe (by decide)

end

/-! ### No train up in SAFE (R117) -/

/-- In SAFE with no train STARTING, READY or RUNNING. -/
def Still (s : State) : Prop := s.mode = .safe ∧ ∀ x, (s.train x).state.stoppable = false

section
variable {s : State}

theorem Still.of_touches {fs : List Field} {t : State} (h : Touches fs s t) (hs : Still s)
    (ht : .trains ∉ fs := by decide) (hm : .mode ∉ fs := by decide) : Still t := by
  obtain ⟨hmode, htrain⟩ := hs
  refine ⟨(show t.mode = s.mode from h .mode hm).trans hmode, fun x => ?_⟩
  rw [State.train, show t.trains = s.trains from h .trains ht]
  exact htrain x

theorem Still.ne_running (h : Still s) (x : TrainIx) : (s.train x).state ≠ .running := fun hx =>
  absurd (h.2 x) (by rw [hx]; decide)

theorem Still.ne_ready (h : Still s) (x : TrainIx) : (s.train x).state ≠ .ready := fun hx =>
  absurd (h.2 x) (by rw [hx]; decide)

theorem eachTrain_inert {f : TrainIx → State → State} (h : ∀ x, f x s = s) (xs : List TrainIx) : eachTrain f xs s = s := by
  induction xs with
  | nil => rfl
  | cons x xs ih => rw [eachTrain_cons, h x, ih]

theorem releaseTrain_inert (h : Still s) (x : TrainIx) : releaseTrain x s = s := by
  unfold releaseTrain; dsimp only
  split
  next hx => exact absurd hx (h.ne_running x)
  next hx => exact absurd hx (h.ne_ready x)
  all_goals rfl

theorem startOrLoad_inert (h : Still s) (x : TrainIx) : startOrLoad x s = s := by
  unfold startOrLoad; split
  · exact if_neg (by rw [h.1]; decide)
  next hx => exact absurd hx (h.ne_ready x)
  all_goals rfl

theorem rampTrain_inert (h : Still s) (x : TrainIx) : rampTrain x s = s := if_neg (h.ne_running x)

/-- R138 to R143: in SAFE with no train up the dispatcher only chooses. -/
theorem dispatchTrains_still (h : Still s) : Touches [.dispatch] s (dispatchTrains s) := by
  have hformed : Touches [.dispatch] s (formCommit s) := formCommit_touches s
  have hreleased : Touches [.dispatch] s (releaseUnwanted (formCommit s)) := by
    rw [releaseUnwanted, eachTrain_inert (releaseTrain_inert (h.of_touches hformed))]
    exact hformed.trans (clearHolds_touches _)
  have hloaded : eachTrain startOrLoad (releaseUnwanted (formCommit s)).dispatch.commit (releaseUnwanted (formCommit s)) =
      releaseUnwanted (formCommit s) := eachTrain_inert (startOrLoad_inert (h.of_touches hreleased)) _
  have hahead : Touches [.dispatch] s (lookAhead (releaseUnwanted (formCommit s))) := by
    have hm := (h.of_touches hreleased).1
    rw [lookAhead, if_neg (by rw [hm]; decide)]
    exact hreleased.trans (touches_withDispatch _ _)
  have hshared : Touches [.dispatch] s
      (computeShares (runningMembers (formCommit s)) (lookAhead (releaseUnwanted (formCommit s)))) :=
    hahead.trans (computeShares_touches _ _)
  unfold dispatchTrains; dsimp only
  rw [hloaded, eachTrain_inert (rampTrain_inert (h.of_touches hshared))]
  exact hshared

theorem dispatchSecond_still : Kept Still dispatchSecond := by
  intro s h
  rw [dispatchSecond_eq]
  have hformed := h.of_touches (formTarget_touches s)
  exact (hformed.of_touches (dispatchTrains_still hformed)).of_touches (meterSecond_touches _)

/-- A record written with a state in which the train is not up. -/
theorem putTrain_still {x : TrainIx} {v : Train} (hv : v.state.stoppable = false) (h : Still s) :
    Still (putTrain x v s) := by
  refine ⟨((putTrain_touches s x v).get .mode).trans h.1, fun y => ?_⟩
  rw [putTrain_train]; split
  · exact hv
  · exact h.2 y

theorem setTrain_still {x : TrainIx} {v : Train} (hv : v.state.stoppable = false) (h : Still s) :
    Still (s.setTrain x v) := by
  refine ⟨h.1, fun y => ?_⟩
  rw [setTrain_train]; split
  · exact hv
  · exact h.2 y

theorem raise_still (n : Notice) (h : Still s) : Still (raise n s) := h.of_touches (raise_touches s n)

theorem expire_still (x : TrainIx) (h : Still s) : Still (expire x s) := by
  unfold expire; split
  next hx => exact absurd (h.2 x) (by rw [hx]; decide)
  next hx => exact absurd hx (h.ne_ready x)
  · exact raise_still _ (putTrain_still rfl h)
  · exact raise_still _ (putTrain_still rfl h)
  all_goals exact setTrain_still (h.2 x) h

theorem trainSecond_still (x : TrainIx) : Kept Still (trainSecond x) := by
  intro s h
  have hcounted : Still (countTimer x s) := by
    unfold countTimer; dsimp only
    split
    · exact h
    · split
      · exact expire_still x h
      · exact setTrain_still (h.2 x) h
  exact putTrain_still (hcounted.2 x) hcounted

theorem Still.withCycles (h : Still s) (a b : Cycle) :
    Still (s.withTrains { s.trains with timerA := a, timerB := b }) := h

theorem trainsSecond_still : Kept Still trainsSecond := by
  intro s h
  have hall : Still (eachTrain trainSecond TrainIx.all s) :=
    Kept.foldl (fun u x => trainSecond x u) trainSecond_still TrainIx.all s h
  exact hall.withCycles _ _

end

/-! ### The change of mode at a supervision failure (R168, R178) -/

section
variable (s : State)

theorem safeStop_train_state (x y : TrainIx) : ((safeStop x s).train y).state =
    if y = x ∧ (s.train y).state.stoppable then .stopping else (s.train y).state := by
  unfold safeStop; split
  next hx =>
    rw [enterStopping, stopFrom, putTrain_train, releaseStore_train]
    by_cases hy : y = x
    · subst hy; rw [if_pos rfl, if_pos ⟨rfl, hx⟩]; rfl
    · simp [hy]
  next hx =>
    rw [if_neg]
    rintro ⟨rfl, hy⟩
    exact hx hy

/-- R117: of the trains told to stop none is up. -/
theorem eachTrain_safeStop_notStoppable {y : TrainIx} : ∀ (xs : List TrainIx) (s : State),
    (y ∈ xs ∨ (s.train y).state.stoppable = false) → ((eachTrain safeStop xs s).train y).state.stoppable = false
  | [], _, h => h.resolve_left (by simp)
  | x :: xs, s, h => by
    rw [eachTrain_cons]
    refine eachTrain_safeStop_notStoppable xs _ ?_
    rw [safeStop_train_state]
    by_cases hup : (s.train y).state.stoppable = true
    · rcases h with h | h
      · rcases List.mem_cons.mp h with rfl | h
        · exact .inr (by rw [if_pos ⟨rfl, hup⟩]; rfl)
        · exact .inl h
      · exact absurd (hup.symm.trans h) nofun
    · exact .inr (by rw [if_neg fun hn => hup hn.2]; simpa using hup)

/-- Both records are IDLE. -/
def BothIdle : Prop := ∀ d, (s.act d).state = .idle

theorem BothIdle.calm {s t : State} (hc : Calm s t) (h : BothIdle s) : BothIdle t := fun d => by
  rcases hc.state d with hd | hd
  · rw [hd]; exact h d
  · exact hd

theorem releaseBoth_idle (why : ReleaseReason) : BothIdle (releaseBoth why s) := fun d => by
  cases d <;> simp [releaseBoth, releaseAct_act]

theorem enteredSafe_trains : (enteredSafe s).trains = (eachTrain safeStop TrainIx.all s).trains :=
  (releaseBoth_touches _ .safe).get .trains

theorem enteredSafe_notStoppable (x : TrainIx) : ((enteredSafe s).train x).state.stoppable = false := by
  rw [State.train, enteredSafe_trains]
  exact eachTrain_safeStop_notStoppable TrainIx.all s (.inl (TrainIx.mem_all x))

theorem enteredSafe_idle : BothIdle (enteredSafe s) :=
  BothIdle.calm (.of_touches (touches_withPort _ _)) (releaseBoth_idle _ .safe)

theorem enteredSafe_mask : (enteredSafe s).port.mask = 0x3810#16 := rfl

theorem enteredSafe_latched (n : Notice) (h : Latched n s) : Latched n (enteredSafe s) :=
  have hg : PortGrows s (releaseBoth .safe (eachTrain safeStop TrainIx.all s)) :=
    (eachTrain_quiet s _ (fun x u => safeStop_quiet u x) TrainIx.all).port.trans
      ((releaseAct_portGrows _ .up .safe).trans (releaseAct_portGrows _ .down .safe))
  hg.2 n h

theorem changeMode_latched {m : Mode} : Latched .mode (changeMode m s) := by
  have h : Latched .mode (raise .mode (s.withMode m)) := latched_raise _ _
  cases m with
  | safe => exact enteredSafe_latched _ _ h
  | _ => exact h

theorem changeMode_safe_mode : (changeMode .safe s).mode = .safe := (enteredSafe_touches _).get .mode

theorem changeMode_safe_still : Still (changeMode .safe s) := ⟨changeMode_safe_mode s, enteredSafe_notStoppable _⟩

theorem changeMode_safe_supervision : (changeMode .safe s).supervision = s.supervision :=
  (enteredSafe_touches _).get .supervision

/-- R178: the mode a supervision failure leads to. -/
def escalated (m : Mode) (e : Escalation) : Mode := if m = .normal ∧ e = .second then .hold else .safe

theorem escalated_cases (m : Mode) (e : Escalation) : escalated m e = .hold ∨ escalated m e = .safe := by
  unfold escalated; split
  · exact .inl rfl
  · exact .inr rfl

variable {s} in
theorem supervisionFailure_eq (h : s.mode = .normal ∨ s.mode = .hold) :
    supervisionFailure s = changeMode (escalated s.mode s.supervision.escalation) (countFailure s) := by
  unfold supervisionFailure escalated
  rcases h with hm | hm <;> cases he : s.supervision.escalation <;> simp [hm]

/-- R176: the supervision timer counts. -/
def Watched : Prop := 0 < s.supervision.timeout ∧ (s.mode = .normal ∨ s.mode = .hold)

theorem timerRuns_iff : timerRuns s = true ↔ Watched s := by simp [timerRuns, Watched]

section
variable {s}

theorem supervisionSecond_stands (h : ¬ Watched s) :
    supervisionSecond s = s := if_neg (mt (timerRuns_iff s).mp h)

theorem supervisionSecond_counts (h : Watched s)
    (hr : 1 < s.supervision.remaining) : supervisionSecond s =
      s.withSupervision { s.supervision with remaining := s.supervision.remaining - 1 } :=
  (if_pos ((timerRuns_iff s).mpr h)).trans (if_neg (Nat.not_le.mpr hr))

/-- R176, R178: the supervision record at the failure, before the mode changes. -/
def failedOnce (v : Supervision) : Supervision := { v with failures := min 255 (v.failures + 1), remaining := 0 }

theorem supervisionSecond_expires (h : Watched s)
    (hr : s.supervision.remaining = 1) : supervisionSecond s =
      changeMode (escalated s.mode s.supervision.escalation) (s.withSupervision (failedOnce s.supervision)) := by
  have hcount : supervisionSecond s =
      supervisionFailure (s.withSupervision { s.supervision with remaining := s.supervision.remaining - 1 }) :=
    (if_pos ((timerRuns_iff s).mpr h)).trans (if_pos hr.le)
  have hfailed : countFailure (s.withSupervision { s.supervision with remaining := s.supervision.remaining - 1 }) =
      s.withSupervision (failedOnce s.supervision) := by
    rw [hr]; rfl
  rw [hcount, ← hfailed]
  exact supervisionFailure_eq h.2

end

end

end Sys2Proof.Machine
end

section
/-! SUPPORT. O16: the second as each of its blocks leaves it, and the response of one block made alone (R7, R9, R11, R128, R136, R137,
R145, R161). -/

namespace Sys2Proof.Machine

set_option Elab.async false

/-! ### One part among the others -/

/-- The responses about one of them, in an order without repetition: the others do not move what only this one may touch. -/
theorem run_about {f : Part → State → State} {ps : List Part} {p : Part} (hp : p ∈ ps) (hn : ps.Nodup) (s : State) :
    ∃ l₁ l₂, (∀ q ∈ l₁ ++ l₂, q ∈ ps ∧ q ≠ p) ∧ run f ps s = run f l₂ (f p (run f l₁ s)) := by
  obtain ⟨l₁, l₂, rfl, h₁, h₂⟩ := split_of_nodup hp hn
  refine ⟨l₁, l₂, fun q hq => ?_, by rw [run_append, run_cons]⟩
  rcases List.mem_append.mp hq with hq | hq
  · exact ⟨List.mem_append_left _ hq, fun h => h₁ (h ▸ hq)⟩
  · exact ⟨List.mem_append_right _ (List.mem_cons_of_mem _ hq), fun h => h₂ (h ▸ hq)⟩

/-- A figure that of the parts only p moves, about p's own response. -/
theorem run_about_figure {f : Part → State → State} {ps : List Part} {p : Part} (hp : p ∈ ps) (hn : ps.Nodup)
    {α : Type} (g : State → α) (hg : ∀ q ∈ ps, q ≠ p → ∀ u, g (f q u) = g u) (s : State) :
    ∃ l₁, (∀ q ∈ l₁, q ∈ ps ∧ q ≠ p) ∧ g (run f l₁ s) = g s ∧ g (run f ps s) = g (f p (run f l₁ s)) := by
  obtain ⟨l₁, l₂, hl, hrun⟩ := run_about hp hn s
  have hmem₁ : ∀ q ∈ l₁, q ∈ ps ∧ q ≠ p := fun q hq => hl q (List.mem_append_left _ hq)
  have hmem₂ : ∀ q ∈ l₂, q ∈ ps ∧ q ≠ p := fun q hq => hl q (List.mem_append_right _ hq)
  refine ⟨l₁, hmem₁, run_keeps g l₁ (fun q hq => hg q (hmem₁ q hq).1 (hmem₁ q hq).2) s, ?_⟩
  rw [hrun]
  exact run_keeps g l₂ (fun q hq => hg q (hmem₂ q hq).1 (hmem₂ q hq).2) _

/-! ### The account's second (R7, R9, R11) -/

/-- R7: whether the reading is STALE after the second. -/
def staleNext (a : Account) (l : Limits) : Bool := !a.readingSeen || decide (l.readStale ≤ min 65535 (a.readingAge + 1))

/-- R9: the power metered in a second, from the trains as they stand. -/
def meteredNext (s : State) (x : TrainIx) : Nat :=
  if staleNext s.account s.limits = true then (s.train x).setpoint else s.account.power.get x

/-- R7, R11: the account after a second in which the trains carry kw. -/
def Account.second (a : Account) (l : Limits) (kw : TrainIx → Nat) : Account :=
  { a with
    readingAge := min 65535 (a.readingAge + 1), stale := staleNext a l
    eC := min 4294967295 (a.eC + sumOver kw [.c0, .c1, .c2, .c3])
    eE := min 4294967295 (a.eE + sumOver kw [.e0, .e1, .e2]) }

theorem accountSecond_account (s : State) :
    (accountSecond s).account = s.account.second s.limits (meteredNext s) := rfl

/-! ### A second in any order (R128) -/

section
variable {order : List Part} {s : State}

theorem clockSecond_clock (h : secondEnds s = false) : (clockSecond s).clock =
    if s.clock.running then { s.clock with s := s.clock.s + 1 } else s.clock := by
  rw [clockSecond, h, if_neg (by decide)]
  split <;> rfl

/-- What a run through the responses to a second leaves of a field that one of them alone may touch. -/
theorem secondRun_figure {p : Part} (hp : answersSecond p = true) {α : Type} (g : State → α)
    (hg : ∀ q, answersSecond q = true → q ≠ p → ∀ u, g (secondResponse q u) = g u) (s : State) :
    ∃ u, (∀ f, (∀ q, answersSecond q = true → q ≠ p → f ∉ secondFields q) → s.agrees u f) ∧ g u = g s
      ∧ g (run secondResponse (secondOrder order) s) = g (secondResponse p u) := by
  obtain ⟨l₁, hl, hg₁, hrun⟩ := run_about_figure ((mem_secondOrder order p).mpr hp) (nodup_secondOrder order) g
    (fun q hq hne => hg q ((mem_secondOrder order q).mp hq) hne) s
  refine ⟨_, fun f hf => ?_, hg₁, hrun⟩
  refine run_rel (R := fun u v => u.agrees v f) (fun u => (Touches.refl u) f (by simp))
    (fun _ _ _ h k => State.agrees_trans h k) l₁ (fun q hq u => ?_) s
  obtain ⟨hmem, hne⟩ := hl q hq
  exact secondResponse_frame q u f (hf q ((mem_secondOrder order q).mp hmem) hne)

/-- R129: with the clock short of L_INT a second ends no interval. -/
theorem secondEnds_of_short (h : s.clock.running = true → s.clock.s + 1 < s.limits.lInt) : secondEnds s = false := by
  cases hr : s.clock.running
  · simp [secondEnds, hr]
  · simpa [secondEnds, hr] using h hr

/-- No response to a second writes the limits. -/
theorem secondFields_limits (q : Part) : .limits ∉ secondFields q := by cases q <;> decide

/-- R7, R9, R11: the account's second; a fresh reading is metered as it was stored. -/
theorem secondRun_account (s : State) : ∃ kw,
    (staleNext s.account s.limits = false → kw = s.account.power.get)
      ∧ (run secondResponse (secondOrder order) s).account = s.account.second s.limits kw := by
  have hfields : ∀ q, answersSecond q = true → q ≠ .accountSecond → .account ∉ secondFields q := by
    intro q; cases q <;> decide
  obtain ⟨u, hu, hsame, hrun⟩ := secondRun_figure (order := order) (p := .accountSecond) rfl State.account
    (fun q hq hne v => secondResponse_frame q v .account (hfields q hq hne)) s
  have hlimits : u.limits = s.limits := hu .limits fun q _ _ => secondFields_limits q
  refine ⟨meteredNext u, fun hfresh => ?_, ?_⟩
  · funext x
    rw [meteredNext, hsame, hlimits, hfresh, if_neg (by decide)]
  · rw [hrun, ← hsame, ← hlimits]
    exact accountSecond_account u

theorem secondRun_clock (h : secondEnds s = false) : (run secondResponse (secondOrder order) s).clock =
    if s.clock.running then { s.clock with s := s.clock.s + 1 } else s.clock := by
  have hfields : ∀ q, answersSecond q = true → q ≠ .clockSecond → .clock ∉ secondFields q := by
    intro q; cases q <;> decide
  obtain ⟨u, hu, hsame, hrun⟩ := secondRun_figure (order := order) (p := .clockSecond) rfl State.clock
    (fun q hq hne v => secondResponse_frame q v .clock (hfields q hq hne)) s
  have hlimits : u.limits = s.limits := hu .limits fun q _ _ => secondFields_limits q
  rw [hrun, show secondResponse .clockSecond u = clockSecond u from rfl,
    clockSecond_clock ((secondEnds_of_eq hsame hlimits).trans h), hsame]

theorem secondRun_cycles (s : State) : heaterCycles (run secondResponse (secondOrder order) s) =
    (s.trains.timerA.advance, s.trains.timerB.advance) := by
  obtain ⟨u, -, hsame, hrun⟩ := secondRun_figure (order := order) (p := .trainsSecond) rfl heaterCycles
    (fun q _ hne v => secondResponse_cycles v hne) s
  obtain ⟨ha, hb⟩ := Prod.mk.inj hsame
  rw [hrun]
  refine (trainsSecond_cycles u).trans ?_
  rw [ha, hb]

/-! ### Supervision among the other responses (R168, R176, R178) -/

theorem secondResponse_still {q : Part} (h : q ≠ .supervisionSecond) : Kept Still (secondResponse q) := by
  intro s hs
  cases q with
  | accountSecond => exact hs.of_touches (accountSecond_touches s)
  | storesSecond => exact hs.of_touches (storesSecond_touches s)
  | trainsSecond => exact trainsSecond_still s hs
  | dispatchSecond => exact dispatchSecond_still s hs
  | ordersSecond => exact hs.of_touches (ordersSecond_touches s)
  | supervisionSecond => exact absurd rfl h
  | clockSecond => exact hs.of_touches (clockSecond_touches s)
  | _ => exact hs

theorem secondResponse_calm {q : Part} (h : q ≠ .supervisionSecond) (s : State) : Calm s (secondResponse q s) := by
  cases q with
  | accountSecond => exact .of_touches (accountSecond_touches s)
  | storesSecond => exact .of_touches (storesSecond_touches s)
  | trainsSecond => exact .of_touches (trainsSecond_touches s)
  | dispatchSecond => exact dispatchSecond_calm s
  | ordersSecond => exact ordersSecond_calm s
  | supervisionSecond => exact absurd rfl h
  | clockSecond => exact .of_touches (clockSecond_touches s)
  | _ => exact .refl s

/-- What the other responses keep of mode, supervision, notices, stopped trains and idle records. -/
structure Aside (s t : State) : Prop where
  mode : t.mode = s.mode
  supervision : t.supervision = s.supervision
  port : PortGrows s t
  still : Still s → Still t
  idle : BothIdle s → BothIdle t

theorem Aside.refl (s : State) : Aside s s := ⟨rfl, rfl, .refl s, id, id⟩

theorem Aside.trans {s t u : State} (h : Aside s t) (k : Aside t u) : Aside s u :=
  ⟨k.mode.trans h.mode, k.supervision.trans h.supervision, h.port.trans k.port, k.still ∘ h.still, k.idle ∘ h.idle⟩

theorem secondResponse_aside {q : Part} (h : q ≠ .supervisionSecond) (s : State) : Aside s (secondResponse q s) where
  mode := secondResponse_frame q s .mode (by revert h; cases q <;> decide)
  supervision := secondResponse_frame q s .supervision (by revert h; cases q <;> decide)
  port := secondResponse_portGrows s h
  still := secondResponse_still h s
  idle := BothIdle.calm (secondResponse_calm h s)

theorem secondRun_supervision (s : State) : ∃ u, Aside s u
    ∧ Aside (supervisionSecond u) (run secondResponse (secondOrder order) s) := by
  obtain ⟨l₁, l₂, hl, hrun⟩ := run_about ((mem_secondOrder order .supervisionSecond).mpr rfl) (nodup_secondOrder order) s
  have haside : ∀ l : List Part, (∀ q ∈ l, q ≠ .supervisionSecond) → ∀ v, Aside v (run secondResponse l v) :=
    fun l h => run_rel Aside.refl (fun _ _ _ => Aside.trans) l fun q hq => secondResponse_aside (h q hq)
  refine ⟨run secondResponse l₁ s, haside l₁ (fun q hq => (hl q (List.mem_append_left _ hq)).2) s, ?_⟩
  rw [hrun]
  exact haside l₂ (fun q hq => (hl q (List.mem_append_right _ hq)).2) _

section
variable {u t : State} (hu : Aside s u) (ht : Aside (supervisionSecond u) t)
include hu

theorem Aside.watched : Watched s ↔ Watched u := by rw [Watched, Watched, hu.mode, hu.supervision]

include ht

theorem supervised_stands (h : ¬ Watched s) : t.supervision = s.supervision ∧ t.mode = s.mode := by
  have hsame := supervisionSecond_stands (mt hu.watched.mpr h)
  rw [ht.supervision, ht.mode, hsame]
  exact ⟨hu.supervision, hu.mode⟩

theorem supervised_counts (h : Watched s) (hr : 1 < s.supervision.remaining) :
    t.supervision = { s.supervision with remaining := s.supervision.remaining - 1 } ∧ t.mode = s.mode := by
  have hcount := supervisionSecond_counts (hu.watched.mp h) (by rw [hu.supervision]; exact hr)
  rw [ht.supervision, ht.mode, hcount, ← hu.supervision]
  exact ⟨rfl, hu.mode⟩

/-- R168, R178: the last second of the timer, and what the other responses leave of its effects. -/
theorem supervised_expires (h : Watched s) (hr : s.supervision.remaining = 1) :
    (let next := escalated s.mode s.supervision.escalation
     t.mode = next
      ∧ t.supervision =
        { s.supervision with
          failures := min 255 (s.supervision.failures + 1)
          remaining := if next = .hold then s.supervision.timeout else 0 }
      ∧ Latched .mode t ∧ (next = .hold → t.port.mask = s.port.mask)
      ∧ (next = .safe → t.port.mask = 0x3810#16 ∧ (∀ x, (t.train x).state.stoppable = false)
        ∧ t.orders.up.state = .idle ∧ t.orders.down.state = .idle)) := by
  intro next
  have hexpires := supervisionSecond_expires (hu.watched.mp h) (by rw [hu.supervision]; exact hr)
  rw [hu.mode, hu.supervision] at hexpires
  change supervisionSecond u = changeMode next _ at hexpires
  rw [hexpires] at ht
  refine ⟨?_, ?_, ht.port.2 _ (changeMode_latched _), fun hn => ?_, fun hn => ?_⟩
  · rw [ht.mode]
    rcases escalated_cases s.mode s.supervision.escalation with hn | hn <;> simp only [next, hn]
    · rfl
    · exact changeMode_safe_mode _
  · rw [ht.supervision]
    rcases escalated_cases s.mode s.supervision.escalation with hn | hn <;> simp only [next, hn]
    · rfl
    · exact changeMode_safe_supervision _
  · rw [hn] at ht
    exact ht.port.1.trans hu.port.1
  · rw [hn] at ht
    have hidle := ht.idle (enteredSafe_idle _)
    exact ⟨ht.port.1, (ht.still (changeMode_safe_still _)).2, hidle .up, hidle .down⟩

end

theorem secondRun_touches (s : State) :
    Touches [.account, .heat, .trains, .dispatch, .orders, .supervision, .mode, .clock, .proj, .port] s
      (run secondResponse (secondOrder order) s) :=
  run_touches _ (fun q _ u => (secondResponse_frame q u).mono (by cases q <;> decide)) s

end

/-! ### One response alone (log 24) -/

/-- With every other response put off, a second with nothing due is the clock's and the one block's. -/
theorem secondNow_alone {p : Part} (hp : answersSecond p = true) (hc : p ≠ .clockSecond) {s : State} (hd : s.due = []) :
    ∃ d e, secondNow ⟨[], othersThan p⟩ s = (clockSecond (respondSecond p (s.withDue d))).withDue e := by
  have hbefore : ((beforeClock []).map Due.second).filter (fun d => !(othersThan p).contains d.part) = [.second p] := by
    have hone : (beforeClock []).filter (fun q => !(othersThan p).contains q) = [p] := by
      revert hp hc; cases p <;> decide
    rw [List.filter_map]
    exact congrArg (List.map Due.second) hone
  have hafter : ∀ b, (duesAfterClock [] b).filter (fun d => !(othersThan p).contains d.part) = [] := by
    have hothers : ∀ q ∈ afterClock [], (othersThan p).contains q = true := by
      revert hp; cases p <;> decide
    intro b
    rw [List.filter_eq_nil_iff]
    intro d hd
    rw [hothers _ (part_mem_afterClock hd)]
    decide
  have halone : ∀ u, ∃ d, respondOrPutOff (othersThan p) ((beforeClock []).map Due.second) u =
      respondSecond p (u.withDue d) := fun u => by
    rw [respondOrPutOff, hbefore]
    exact ⟨_, rfl⟩
  have hnone : ∀ b u, ∃ e, respondOrPutOff (othersThan p) (duesAfterClock [] b) u = u.withDue e := fun b u => by
    rw [respondOrPutOff, hafter]
    exact ⟨_, rfl⟩
  unfold secondNow; dsimp only
  rw [settleForSecond_nothing hd]
  obtain ⟨d, hd⟩ := halone s
  rw [hd]
  obtain ⟨e, he⟩ := hnone (turnRaised (respondSecond p (s.withDue d))) (clockSecond (respondSecond p (s.withDue d)))
  exact ⟨d, e, he⟩

/-! ### The dispatcher's second (R136, R137, R145, R161) -/

/-- The receiver's records with one of them written. -/
def Orders.setAct (o : Orders) (d : Dir) (v : Activation) : Orders :=
  match d with
  | .up => { o with up := v }
  | .down => { o with down := v }

theorem setAct_orders (s : State) (d : Dir) (v : Activation) : (s.setAct d v).orders = s.orders.setAct d v := by
  cases d <;> rfl

/-- R161: what a second adds to a record of which the dispatcher hands over a delivery beyond its schedule. -/
def Activation.metered (a : Activation) (d : Dir) (kw : Nat) (sched delivered : Int) : Activation :=
  { a with
    servedKj := a.servedKj + (match d with
      | .up => clampInt 0 kw (delivered - sched)
      | .down => clampInt 0 kw (sched - delivered))
    requestedKj := a.requestedKj + kw }

section
variable (w : State)

/-- R145: the dispatcher's own part of the metering. -/
def netMetered : State :=
  w.withDispatch
    { w.dispatch with
      schedKj := w.dispatch.schedKj + w.dispatch.tSched, delKj := w.dispatch.delKj + deliveredNet w }

theorem meterSecond_eq : meterSecond w = meterActivation (deliveredNet w) (netMetered w) := rfl

theorem netMetered_act (d : Dir) : (netMetered w).act d = w.act d := by cases d <;> rfl

/-- R145: what the metering of the second writes of the dispatcher's record. -/
theorem meterSecond_dispatch : (meterSecond w).dispatch =
    { w.dispatch with
      schedKj := w.dispatch.schedKj + w.dispatch.tSched, delKj := w.dispatch.delKj + deliveredNet w } :=
  (meterActivation_touches _ _).get .dispatch

theorem meterActivation_none {z : Int} (h : w.dispatch.actDir = none) : meterActivation z w = w := by
  simp only [meterActivation, h]

theorem meterActivation_active {z : Int} {d : Dir} (h : w.dispatch.actDir = some d) (ha : (w.act d).state = .active) :
    meterActivation z w =
      w.setAct d ((w.act d).metered d (requestedKw w d) w.dispatch.tSched z) := by
  simp only [meterActivation, h]
  rw [if_pos ha]
  cases d <;> rfl

/-- R145, R161: without an activation in hand the records stand. -/
theorem meterSecond_orders_none (h : w.dispatch.actDir = none) : (meterSecond w).orders = w.orders := by
  rw [meterSecond_eq, meterActivation_none (netMetered w) h]
  rfl

/-- R145, R161: the record in hand takes the second. -/
theorem meterSecond_orders_active {d : Dir} (h : w.dispatch.actDir = some d) (ha : (w.act d).state = .active) :
    (meterSecond w).orders = w.orders.setAct d
      ((w.act d).metered d (requestedKw w d) w.dispatch.tSched (deliveredNet w)) := by
  have ha' : ((netMetered w).act d).state = .active := by rw [netMetered_act]; exact ha
  rw [meterSecond_eq, meterActivation_active (netMetered w) h ha', setAct_orders, netMetered_act]
  rfl

end

section
variable (s : State)

/-- R145: the state in which the second is metered. -/
def dispatched : State := dispatchTrains (formTarget s)

theorem dispatchSecond_metered : dispatchSecond s = meterSecond (dispatched s) := rfl

theorem dispatched_quiet : Quiet (formTarget s) (dispatched s) := dispatchTrains_quiet _

theorem dispatched_agrees : (dispatched s).account = s.account ∧ (dispatched s).table = s.table
    ∧ (dispatched s).orders = s.orders :=
  have h : Touches quietFields s (dispatched s) := (formTarget_touches s).comp (dispatched_quiet s).touches
  ⟨h.get .account, h.get .table, h.get .orders⟩

theorem act_of_orders {s t : State} (ho : t.orders = s.orders) (d : Dir) : t.act d = s.act d := by
  cases d <;> simp only [State.act, ho]

/-- R161: the power an activation asks for reads the table and the records alone. -/
theorem requestedKw_of_eq {s t : State} (ht : t.table = s.table) (ho : t.orders = s.orders) (d : Dir) :
    requestedKw t d = requestedKw s d := by
  rw [requestedKw, act_of_orders ho, activeSum, ht]
  rfl

/-- R136: of the requested powers that of the activation in hand. -/
def activationKw : Nat :=
  match activeDir s with
  | none => 0
  | some d => requestedKw s d

/-- R136, R137: the target with the last limit that cut it. -/
def limitedTarget : Limited := liveLimits s (targetBefore (scheduledNet s) (activeDir s) (activationKw s))

theorem formTarget_dispatch : (formTarget s).dispatch =
    { s.dispatch with
      tSched := scheduledNet s, actDir := activeDir s, actKw := activationKw s
      target := (limitedTarget s).1, limit := (limitedTarget s).2, dir := sideOf (limitedTarget s).1 } := rfl

/-- R136, R137: of the dispatcher's record the steps on the trains write only its choices. -/
theorem dispatched_dispatch : ∃ commit need share hold, (dispatched s).dispatch =
    { s.dispatch with
      tSched := scheduledNet s, actDir := activeDir s, actKw := activationKw s
      target := (limitedTarget s).1, limit := (limitedTarget s).2, dir := sideOf (limitedTarget s).1
      commit := commit, need := need, share := share, hold := hold } := by
  obtain ⟨c, n, sh, h, hd⟩ := (dispatched_quiet s).figures
  exact ⟨c, n, sh, h, by rw [hd, formTarget_dispatch]⟩

/-- R136, R137, R145: the dispatcher's record after its second. -/
theorem dispatchSecond_dispatch : ∃ commit need share hold, (dispatchSecond s).dispatch =
    { s.dispatch with
      tSched := scheduledNet s, actDir := activeDir s, actKw := activationKw s
      target := (limitedTarget s).1, limit := (limitedTarget s).2, dir := sideOf (limitedTarget s).1
      commit := commit, need := need, share := share, hold := hold
      schedKj := s.dispatch.schedKj + scheduledNet s, delKj := s.dispatch.delKj + deliveredNet (dispatched s) } := by
  obtain ⟨c, n, sh, h, hd⟩ := dispatched_dispatch s
  exact ⟨c, n, sh, h, by rw [dispatchSecond_metered, meterSecond_dispatch, hd]⟩

/-- R161: without an activation in hand the records stand. -/
theorem dispatchSecond_orders_none (h : activeDir s = none) : (dispatchSecond s).orders = s.orders := by
  obtain ⟨-, -, horders⟩ := dispatched_agrees s
  obtain ⟨_, _, _, _, hd⟩ := dispatched_dispatch s
  have hdir : (dispatched s).dispatch.actDir = none := by rw [hd]; exact h
  rw [dispatchSecond_metered, meterSecond_orders_none _ hdir, horders]

/-- R161: the record in hand takes the second. -/
theorem dispatchSecond_orders_active {d : Dir} (h : activeDir s = some d) (ha : (s.act d).state = .active) :
    (dispatchSecond s).orders = s.orders.setAct d
      ((s.act d).metered d (requestedKw s d) (scheduledNet s) (deliveredNet (dispatched s))) := by
  obtain ⟨-, htable, horders⟩ := dispatched_agrees s
  obtain ⟨_, _, _, _, hd⟩ := dispatched_dispatch s
  have hdir : (dispatched s).dispatch.actDir = some d := by rw [hd]; exact h
  have hsched : (dispatched s).dispatch.tSched = scheduledNet s := by rw [hd]
  have hact := act_of_orders horders d
  rw [dispatchSecond_metered, meterSecond_orders_active _ hdir (by rw [hact]; exact ha), horders, hact, hsched,
    requestedKw_of_eq htable horders]

theorem dispatchSecond_trains : (dispatchSecond s).trains = (dispatched s).trains := (meterSecond_touches _).get .trains

/-- R145: the net delivered in the second, over the setpoints it ends with. -/
theorem deliveredNet_dispatched : deliveredNet (dispatched s) =
    (let kw := fun x => if s.account.stale = true then ((dispatchSecond s).train x).setpoint else s.account.power.get x
     (sumOver kw [.e0, .e1, .e2] : Int) - sumOver kw [.c0, .c1, .c2, .c3]) := by
  have hkw : meteredPower (dispatched s) =
      fun x => if s.account.stale = true then ((dispatchSecond s).train x).setpoint else s.account.power.get x := by
    funext x
    rw [meteredPower, (dispatched_agrees s).1, State.train, State.train, dispatchSecond_trains]
  rw [← hkw]
  exact rfl

/-! ### The direction of the activation in hand (R136, R155) -/

section
variable {s}

theorem activeDir_up (h : s.orders.up.state = .active) : activeDir s = some .up := if_pos h

theorem activeDir_down (hu : s.orders.up.state ≠ .active) (h : s.orders.down.state = .active) :
    activeDir s = some .down := (if_neg hu).trans (if_pos h)

theorem activeDir_none (hu : s.orders.up.state ≠ .active) (h : s.orders.down.state ≠ .active) : activeDir s = none :=
  (if_neg hu).trans (if_neg h)

theorem requestedKw_active {d : Dir} (h : (s.act d).state = .active) :
    requestedKw s d = (s.act d).level * activeSum s (reserveKind d) / 100 := if_pos h

theorem activationKw_of {d : Dir} (h : activeDir s = some d) : activationKw s = requestedKw s d := by
  simp only [activationKw, h]

theorem activationKw_none (h : activeDir s = none) : activationKw s = 0 := by simp only [activationKw, h]

end

/-- R136: the target before limits, by the records. -/
theorem targetBefore_records : targetBefore (scheduledNet s) (activeDir s) (activationKw s) =
    if s.orders.up.state = .active then upNet (scheduledNet s) (s.orders.up.level * activeSum s .reserveUp / 100)
    else if s.orders.down.state = .active then
      downNet (scheduledNet s) (s.orders.down.level * activeSum s .reserveDown / 100)
    else scheduledNet s := by
  by_cases hu : s.orders.up.state = .active
  · rw [if_pos hu, activationKw_of (activeDir_up hu), activeDir_up hu, requestedKw_active (d := .up) hu]
    rfl
  · by_cases hd : s.orders.down.state = .active
    · rw [if_neg hu, if_pos hd, activationKw_of (activeDir_down hu hd), activeDir_down hu hd,
        requestedKw_active (d := .down) hd]
      rfl
    · rw [if_neg hu, if_neg hd, activeDir_none hu hd]
      rfl

end

end Sys2Proof.Machine
end

section
open Sys2Proof Sys2Proof.Machine

set_option Elab.async false

/-- Settles O16: a second in any order by each block's own response, and the account's and the dispatcher's responses made alone. -/
theorem secondCountsAndMeters : Obligations.SecondCountsAndMeters := by
  refine ⟨fun order s hs hd hshort => ?_, fun s hs hd => ?_, fun s hs hd hlaw => ?_⟩
  · intro age stale
    have he := secondEnds_of_short hshort
    obtain ⟨kw, hkw, hacc⟩ := secondRun_account (order := order) s
    obtain ⟨ha, hb⟩ := Prod.mk.inj (secondRun_cycles (order := order) s)
    obtain ⟨u, hu, ht⟩ := secondRun_supervision (order := order) s
    have hclock := secondRun_clock (order := order) he
    have htouches := secondRun_touches (order := order) s
    have hexec : exec (.secondEvent ⟨order, []⟩) s = .next (run secondResponse (secondOrder order) s) :=
      congrArg Host.Outcome.next ((unlessHeld_taken s _ hs).trans (secondNow_inside hd he))
    generalize run secondResponse (secondOrder order) s = t at *
    refine ⟨t, hexec, by rw [hacc]; rfl, by rw [hacc]; rfl, fun hfresh => ?_, by rw [hacc]; rfl, by rw [hacc]; rfl,
      hclock, ha, hb, ?_, htouches⟩
    · rw [hacc, hkw hfresh]
      exact ⟨rfl, rfl⟩
    · exact ⟨fun hr => supervised_counts hu ht hr, fun hr => supervised_expires hu ht hr,
        fun hr => supervised_stands hu ht hr⟩
  · intro age stale kw
    obtain ⟨d, e, halone⟩ := secondNow_alone (p := .accountSecond) rfl (by decide) hd
    refine ⟨_, congrArg Host.Outcome.next ((unlessHeld_taken s _ hs).trans halone), ?_, ?_⟩
    · refine ((clockSecond_touches _).get .account).trans ?_
      exact accountSecond_account (s.withDue d)
    · exact Touches.comp (gs := [.account, .clock, .due])
        (Touches.comp (gs := [.account, .clock, .due])
          (Touches.comp (gs := [.account, .due]) (touches_withDue s d) (accountSecond_touches _))
          (clockSecond_touches _)) (touches_withDue _ e)
  · intro sched upKw downKw before x1 x2 x3 x4
    obtain ⟨d, e, halone⟩ := secondNow_alone (p := .dispatchSecond) rfl (by decide) hd
    change secondNow _ _ = (clockSecond (dispatchSecond (s.withDue d))).withDue e at halone
    have hframe : Touches [.clock, .due] (dispatchSecond (s.withDue d))
        ((clockSecond (dispatchSecond (s.withDue d))).withDue e) :=
      (clockSecond_touches _).comp (touches_withDue _ e)
    have htouches : Touches [.dispatch, .trains, .heat, .orders, .proj, .port, .clock, .due] s
        ((clockSecond (dispatchSecond (s.withDue d))).withDue e) :=
      Touches.comp (gs := [.dispatch, .trains, .heat, .orders, .proj, .port, .clock, .due])
        (Touches.comp (gs := .due :: dispatchFields) (touches_withDue s d) (dispatchSecond_touches _)) hframe
    obtain ⟨_, _, _, _, hrecord⟩ := dispatchSecond_dispatch (s.withDue d)
    have hx4 : limitedTarget (s.withDue d) = x4 :=
      congrArg (liveLimits (s.withDue d)) (targetBefore_records (s.withDue d))
    have hdel := deliveredNet_dispatched (s.withDue d)
    have hactive := @dispatchSecond_orders_active (s.withDue d)
    have hnone := dispatchSecond_orders_none (s.withDue d)
    have hd' : ((clockSecond (dispatchSecond (s.withDue d))).withDue e).dispatch = _ := hframe.get .dispatch
    have ho : ((clockSecond (dispatchSecond (s.withDue d))).withDue e).orders = _ := hframe.get .orders
    have htr : ((clockSecond (dispatchSecond (s.withDue d))).withDue e).trains = _ := hframe.get .trains
    rw [hx4, ← hd'] at hrecord
    simp only [State.train, ← htr] at hdel
    rw [← ho] at hnone
    simp only [← ho] at hactive
    generalize (clockSecond (dispatchSecond (s.withDue d))).withDue e = t at *
    refine ⟨t, congrArg Host.Outcome.next ((unlessHeld_taken s _ hs).trans halone), ?_, htouches⟩
    intro kw del
    change deliveredNet (dispatched (s.withDue d)) = del at hdel
    rw [hdel] at hrecord hactive
    have hkw : ∀ {y : Dir}, (s.act y).state = .active →
        requestedKw (s.withDue d) y = (s.act y).level * activeSum s (reserveKind y) / 100 := by
      intro y h
      exact (requestedKw_of_eq (t := s.withDue d) (s := s) rfl rfl y).trans (requestedKw_active h)
    rw [hrecord]
    refine ⟨rfl, rfl, rfl, rfl, rfl, rfl, rfl, fun hu => ?_, fun hdown => ?_, fun hu hdown => ?_⟩
    · have hdir : activeDir (s.withDue d) = some .up := activeDir_up hu
      refine ⟨hdir, (activationKw_of hdir).trans (hkw (y := .up) hu), ?_⟩
      rw [hactive hdir hu, hkw (y := .up) hu]
      rfl
    · have hu : s.orders.up.state ≠ .active := fun hu => hlaw.1 ⟨hu, hdown⟩
      have hdir : activeDir (s.withDue d) = some .down := activeDir_down hu hdown
      refine ⟨hdir, (activationKw_of hdir).trans (hkw (y := .down) hdown), ?_⟩
      rw [hactive hdir hdown, hkw (y := .down) hdown]
      rfl
    · have hdir : activeDir (s.withDue d) = none := activeDir_none hu hdown
      exact ⟨hdir, activationKw_none hdir, hnone hdir⟩

end

section
/-! SUPPORT. O41: a boundary, and a second that ends an interval, as runs through their orders; what each response leaves of the port, of
the engine's walk and of the closings (R16 to R18, R39, R64 to R68, R90, R115, R129, R146, R160, R162). -/

namespace Sys2Proof.Machine

set_option Elab.async false

/-! ### The runs -/

section
variable {order : List Part} {s : State}

/-- A boundary with nothing due and nothing put off. -/
theorem boundaryNow_run (hd : s.due = []) : boundaryNow ⟨order, []⟩ s =
    run (respondBoundary (turnOf s)) (boundaryOrder order) (endInterval s) := by
  unfold boundaryNow; dsimp only
  rw [settle_nothing s true hd, respondOrPutOff_none, boundaryDues, respondAll_map]
  rfl

/-- A block's response to a second or to the boundary that the second raised. -/
def turnResponse (b : Turn) (p : Part) (s : State) : State :=
  if answersSecond p then respondSecond p s else respondBoundary b p s

theorem turnResponse_frame (b : Turn) (p : Part) (s : State) : Touches (partFields p) s (turnResponse b p s) := by
  unfold turnResponse; split
  · exact respondSecond_frame p s
  · exact respondBoundary_frame b p s

theorem turnResponse_boundary {p : Part} (h : answersSecond p = false) (b : Turn) (s : State) :
    turnResponse b p s = respondBoundary b p s := if_neg (by simp [h])

/-- What both kinds of response keep. -/
theorem turnResponse_kept {P : State → Prop} {b : Turn} (p : Part) (hs : Kept P (respondSecond p))
    (hb : Kept P (respondBoundary b p)) : Kept P (turnResponse b p) := by
  intro s h
  unfold turnResponse; split
  · exact hs s h
  · exact hb s h

theorem turnOf_of_eq {s t : State} (hc : t.clock = s.clock) (hl : t.limits = s.limits) : turnOf t = turnOf s := by
  rw [turnOf, hc, hl, turnOf]

/-- The dues after the clock's own, where the second ends the interval. -/
theorem respondAll_afterClock (b : Turn) (s : State) : respondAll (duesAfterClock order (some b)) s =
    run (turnResponse b) (afterClock order) s := by
  have hone : ∀ (l : List Part) (u : State), respondAll (l.flatMap fun p =>
      if answersSecond p then [Due.second p] else [.boundary b p]) u = run (turnResponse b) l u := by
    intro l
    induction l with
    | nil => exact fun _ => rfl
    | cons p l ih =>
      intro u
      rw [List.flatMap_cons, respondAll, List.foldl_append, run_cons, ← ih]
      unfold turnResponse
      cases answersSecond p <;> rfl
  exact hone (afterClock order) s

/-- A second that ends the interval, with nothing due and nothing put off. -/
theorem secondNow_ending (hd : s.due = []) (he : secondEnds s = true) : secondNow ⟨order, []⟩ s =
    run (turnResponse (turnOf s)) (afterClock order) (endInterval (run respondSecond (beforeClock order) s)) := by
  obtain ⟨hclock, hlimits, -⟩ := run_respondSecond_clock (beforeClock order) s
  have hends := (secondEnds_of_eq hclock hlimits).trans he
  have hraised : turnRaised (run respondSecond (beforeClock order) s) = some (turnOf s) := by
    rw [turnRaised, hends, if_pos rfl, turnOf_of_eq hclock hlimits]
  have hended : clockSecond (run respondSecond (beforeClock order) s) =
      endInterval (run respondSecond (beforeClock order) s) := if_pos hends
  unfold secondNow
  simp only [respondOrPutOff_none, settleForSecond_nothing hd, respondAll_map]
  show respondAll (duesAfterClock order (turnRaised (run respondSecond _ s))) (clockSecond (run respondSecond _ s)) = _
  rw [hraised, hended, respondAll_afterClock]

theorem mem_afterClock {p : Part} (h : answersSecond p = false) : p ∈ afterClock order := by
  obtain ⟨l₁, l₂, hl, -, -, -, ha⟩ := order_about_clock order
  have hp := mem_fullOrder order p
  rw [hl, List.mem_append, List.mem_cons] at hp
  rw [ha, List.mem_append, List.mem_filter]
  rcases hp with hp | rfl | hp
  · exact .inr ⟨hp, by simp [h]⟩
  · exact absurd h nofun
  · exact .inl hp

theorem nodup_afterClock : (afterClock order).Nodup := by
  obtain ⟨l₁, l₂, hl, -, -, -, ha⟩ := order_about_clock order
  have hn := nodup_fullOrder order
  rw [hl] at hn
  obtain ⟨h₁, h₂, hdisj⟩ := List.nodup_append.mp hn
  rw [ha]
  refine List.nodup_append.mpr ⟨(List.nodup_cons.mp h₂).2, h₁.filter _, fun p hp q hq hpq => ?_⟩
  exact hdisj q (List.mem_filter.mp hq).1 p (List.mem_cons_of_mem _ hp) hpq.symm

end

/-! ### The port through a boundary (R187, R189) -/

section
variable (s : State)

theorem closeAct_portGrows (n : Nat) (d : Dir) : PortGrows s (closeAct n d s) := by
  have h : ∀ v, PortGrows s (s.setAct d v) := fun v => .of_touches (setAct_touches s d v)
  unfold closeAct; dsimp only
  split
  · exact .refl s
  · split
    · exact (h _).trans (raise_portGrows _ _)
    · exact h _

theorem checkBacking_portGrows (n : Nat) (d : Dir) : PortGrows s (checkBacking n d s) := by
  unfold checkBacking; split
  · exact releaseAct_portGrows s d _
  · exact .refl s

theorem takeClosings_portGrows (n : Nat) : PortGrows s (takeClosings n s) :=
  (PortGrows.of_touches (dispatchClose_touches s n)).trans (eachDir_portGrows _ _ fun d u => closeAct_portGrows u n d)

theorem tableBoundary_portGrows (m n : Nat) : PortGrows s (tableBoundary m n s) := by
  have h : ∀ v, PortGrows s ((takeClosings m s).setEntries v) :=
    fun v => (takeClosings_portGrows s m).trans (.of_touches (setEntries_touches _ v))
  unfold tableBoundary; dsimp only
  split
  · exact (h _).trans (raise_portGrows _ _)
  · exact h _

theorem ordersBoundary_portGrows (m n : Nat) : PortGrows s (ordersBoundary m n s) :=
  (eachDir_portGrows s _ fun d u => checkBacking_portGrows u n d).trans
    (eachDir_portGrows _ _ fun d u => closeAct_portGrows u m d)

theorem accountClose_portGrows : PortGrows s (accountClose s) := by
  have ha : ∀ a, PortGrows s (s.withAccount a) := fun a => .of_touches (touches_withAccount s a)
  unfold accountClose; split
  · exact ha _
  · refine PortGrows.trans ?_ (basisChangeAt_portGrows _ _)
    split
    · exact (ha _).trans (raise_portGrows _ _)
    · exact ha _

theorem respondBoundary_portGrows (b : Turn) (p : Part) : PortGrows s (respondBoundary b p s) := by
  cases p with
  | accountClose => exact accountClose_portGrows s
  | tableBoundary => exact tableBoundary_portGrows s _ _
  | ordersBoundary => exact ordersBoundary_portGrows s _ _
  | projectionBoundary => exact basisChangeAt_portGrows _ s
  | storesLoss => exact .of_touches (storesLoss_touches s)
  | dispatchClose => exact .of_touches (dispatchClose_touches s _)
  | trainsDay => exact .of_touches (trainsDay_touches s b)
  | _ => exact .refl s

end

/-! ### The engine's walk through a boundary (R77, R78, R90) -/

/-- A walk runs on the clock's current interval. -/
def OnInterval (s : State) : Prop := s.proj.state = .stale ∧ ∃ w, s.proj.walk = some w ∧ w.base = s.clock.n

/-- The clock and what is due stand; the projection's state and its walk stand, or a walk begins on the clock's interval. -/
structure Ahead (s t : State) : Prop where
  clock : t.clock = s.clock
  due : t.due = s.due
  walk : s.due = [] → (t.proj.state = s.proj.state ∧ t.proj.walk = s.proj.walk) ∨ OnInterval t

theorem Ahead.refl (s : State) : Ahead s s := ⟨rfl, rfl, fun _ => .inl ⟨rfl, rfl⟩⟩

theorem OnInterval.of_same {s t : State} (hs : t.proj.state = s.proj.state) (hw : t.proj.walk = s.proj.walk)
    (hc : t.clock = s.clock) (h : OnInterval s) : OnInterval t := by
  rw [OnInterval, hs, hw, hc]; exact h

theorem Ahead.trans {s t u : State} (h : Ahead s t) (k : Ahead t u) : Ahead s u where
  clock := k.clock.trans h.clock
  due := k.due.trans h.due
  walk hd := by
    rcases k.walk (h.due.trans hd) with ⟨ks, kw⟩ | k'
    · rcases h.walk hd with ⟨hs, hw⟩ | h'
      · exact .inl ⟨ks.trans hs, kw.trans hw⟩
      · exact .inr (h'.of_same ks kw k.clock)
    · exact .inr k'

theorem FreshWalk.onInterval {s t : State} (hc : t.clock = s.clock) (h : FreshWalk s t) : OnInterval t := by
  obtain ⟨hs, w, hw, hbase, -⟩ := h
  exact ⟨hs, w, hw, by rw [hbase, hc]⟩

theorem Ahead.of_touches {fs : List Field} {s t : State} (h : Touches fs s t) (hc : .clock ∉ fs := by decide)
    (hd : .due ∉ fs := by decide) (hp : .proj ∉ fs := by decide) : Ahead s t :=
  have hproj : t.proj = s.proj := h .proj hp
  ⟨h .clock hc, h .due hd, fun _ => .inl (by rw [hproj]; exact ⟨rfl, rfl⟩)⟩

theorem Quiet.ahead {s t : State} (h : Quiet s t) : Ahead s t where
  clock := h.touches.get .clock
  due := h.touches.get .due
  walk _ := h.walk.1.imp_right fun hf => hf.onInterval (h.touches.get .clock)

theorem Ahead.available {s t : State} (h : Ahead s t) (hd : s.due = []) (hs : s.proj.state ≠ .unavailable) :
    t.proj.state ≠ .unavailable := by
  rcases h.walk hd with ⟨hst, -⟩ | ⟨hst, -⟩
  · rw [hst]; exact hs
  · rw [hst]; decide

theorem Ahead.onInterval {s t : State} (h : Ahead s t) (hd : s.due = []) (hs : OnInterval s) : OnInterval t := by
  rcases h.walk hd with ⟨hst, hw⟩ | h'
  · exact hs.of_same hst hw h.clock
  · exact h'

section
variable (s : State)

/-- R90: with nothing due the close's basis change is one on the clock's interval. -/
theorem closeBasisChange_ahead : Ahead s (closeBasisChange s) where
  clock := (closeBasisChange_touches s).get .clock
  due := (closeBasisChange_touches s).get .due
  walk hd := by
    rw [closeBasisChange_nothing s hd]
    exact (basisChange_quiet s).ahead.walk hd

theorem accountClose_ahead : Ahead s (accountClose s) := by
  unfold accountClose; split
  · exact .of_touches (touches_withAccount s _)
  · refine Ahead.trans ?_ (closeBasisChange_ahead _)
    split
    · exact .trans (.of_touches (touches_withAccount s _)) (.of_touches (raise_touches _ _))
    · exact .of_touches (touches_withAccount s _)

theorem trainsSecond_ahead : Ahead s (trainsSecond s) :=
  (eachTrain_quiet s _ (fun x u => trainSecond_quiet u x) TrainIx.all).ahead.trans (.of_touches (touches_withTrains _ _))

theorem dispatchSecond_ahead : Ahead s (dispatchSecond s) := by
  rw [dispatchSecond_metered]
  exact ((Ahead.of_touches (formTarget_touches s)).trans (dispatched_quiet s).ahead).trans
    (.of_touches (meterSecond_touches _))

theorem enteredSafe_ahead : Ahead s (enteredSafe s) :=
  ((eachTrain_quiet s _ (fun x u => safeStop_quiet u x) TrainIx.all).ahead.trans
    (.of_touches (releaseBoth_touches _ .safe))).trans (.of_touches (touches_withPort _ _))

theorem supervisionSecond_ahead : Ahead s (supervisionSecond s) :=
  supervisionSecond_kept (P := fun u => Ahead s u) (fun _ _ hf hu => hu.trans (.of_touches hf))
    (fun u hu => hu.trans (enteredSafe_ahead u)) s (.refl s)

theorem respondSecond_ahead (p : Part) : Ahead s (respondSecond p s) := by
  cases p with
  | accountSecond => exact .of_touches (accountSecond_touches s)
  | storesSecond => exact .of_touches (storesSecond_touches s)
  | trainsSecond => exact trainsSecond_ahead s
  | dispatchSecond => exact dispatchSecond_ahead s
  | ordersSecond => exact .of_touches (ordersSecond_touches s)
  | supervisionSecond => exact supervisionSecond_ahead s
  | _ => exact .refl s

theorem respondBoundary_ahead (b : Turn) (p : Part) : Ahead s (respondBoundary b p s) := by
  cases p with
  | accountClose => exact accountClose_ahead s
  | storesLoss => exact .of_touches (storesLoss_touches s)
  | tableBoundary => exact .of_touches (tableBoundary_touches s _ _)
  | dispatchClose => exact .of_touches (dispatchClose_touches s _)
  | ordersBoundary => exact .of_touches (ordersBoundary_touches s _ _)
  | trainsDay => exact .of_touches (trainsDay_touches s b)
  | projectionBoundary => exact (basisChange_quiet s).ahead
  | _ => exact .refl s

theorem turnResponse_ahead (b : Turn) (p : Part) : Ahead s (turnResponse b p s) := by
  unfold turnResponse; split
  · exact respondSecond_ahead s p
  · exact respondBoundary_ahead s b p

theorem run_ahead {f : Part → State → State} (hf : ∀ p u, Ahead u (f p u)) (l : List Part) : Ahead s (run f l s) :=
  run_rel Ahead.refl (fun _ _ _ => Ahead.trans) l (fun p _ => hf p) s

/-- R90: after a run that holds the engine's own response, a walk of the clock's interval runs. -/
theorem run_onInterval {f : Part → State → State} (hf : ∀ p u, Ahead u (f p u))
    (hb : ∀ u, f .projectionBoundary u = basisChange u) {ps : List Part} (hp : .projectionBoundary ∈ ps) (hn : ps.Nodup)
    (hd : s.due = []) (hs : s.proj.state ≠ .unavailable) : OnInterval (run f ps s) := by
  obtain ⟨l₁, l₂, -, hrun⟩ := run_about hp hn s
  have hbefore := run_ahead s hf l₁
  have hwalk := basisChange_freshWalk (hbefore.available hd hs)
  have hown := (basisChange_quiet (run f l₁ s)).ahead
  rw [hrun, hb]
  exact (run_ahead _ hf l₂).onInterval (hown.due.trans (hbefore.due.trans hd)) (hwalk.onInterval hown.clock)

end

/-! ### The closings (R146, R162) -/

/-- The dispatcher's closing and those of both records hold the same interval. -/
def recordsClosed (n : Nat) (s : State) : Prop := ∀ d, (s.act d).closing.interval = n

/-- From s to t every record keeps its closing. -/
def SameClosings (s t : State) : Prop := ∀ d, (t.act d).closing = (s.act d).closing

theorem SameClosings.refl (s : State) : SameClosings s s := fun _ => rfl

theorem SameClosings.trans {s t u : State} (h : SameClosings s t) (k : SameClosings t u) : SameClosings s u :=
  fun d => (k d).trans (h d)

theorem SameClosings.of_touches {fs : List Field} {s t : State} (h : Touches fs s t) (ho : .orders ∉ fs := by decide) :
    SameClosings s t := fun d => by rw [act_of_orders (h .orders ho)]

theorem setAct_sameClosings {s : State} {d : Dir} {v : Activation} (h : v.closing = (s.act d).closing) :
    SameClosings s (s.setAct d v) := fun e => by
  rw [setAct_act]; split
  next he => rw [h, he]
  · rfl

@[simp] theorem releasedBy_closing (why : ReleaseReason) (a : Activation) : (a.releasedBy why).closing = a.closing := by
  unfold Activation.releasedBy; split <;> rfl

section
variable (s : State)

theorem releaseAct_sameClosings (d : Dir) (why : ReleaseReason) : SameClosings s (releaseAct d why s) := fun e => by
  rw [releaseAct_act]; split
  next he => rw [releasedBy_closing, he]
  · rfl

theorem actSecond_sameClosings (d : Dir) : SameClosings s (actSecond d s) := by
  unfold actSecond; dsimp only
  split
  · exact .refl s
  · split
    · exact releaseAct_sameClosings s d _
    · exact setAct_sameClosings rfl
  · split
    · split
      · exact releaseAct_sameClosings s d _
      · exact setAct_sameClosings rfl
    · exact .refl s

theorem meterActivation_sameClosings (z : Int) : SameClosings s (meterActivation z s) := by
  unfold meterActivation; split
  · exact .refl s
  · dsimp only
    split
    · exact setAct_sameClosings rfl
    · exact .refl s

theorem checkBacking_sameClosings (n : Nat) (d : Dir) : SameClosings s (checkBacking n d s) := by
  unfold checkBacking; split
  · exact releaseAct_sameClosings s d _
  · exact .refl s

theorem eachDir_sameClosings (f : Dir → State → State) (hf : ∀ d u, SameClosings u (f d u)) :
    SameClosings s (eachDir f s) := (hf .up s).trans (hf .down _)

theorem dispatchSecond_sameClosings : SameClosings s (dispatchSecond s) := by
  rw [dispatchSecond_metered, meterSecond_eq]
  exact ((SameClosings.of_touches (formTarget_touches s)).trans (.of_touches (dispatched_quiet s).touches)).trans
    ((SameClosings.of_touches (touches_withDispatch (dispatched s) _)).trans (meterActivation_sameClosings _ _))

theorem enteredSafe_sameClosings : SameClosings s (enteredSafe s) :=
  (SameClosings.of_touches (eachTrain_quiet s _ (fun x u => safeStop_quiet u x) TrainIx.all).touches).trans
    (((releaseAct_sameClosings _ .up .safe).trans (releaseAct_sameClosings _ .down .safe)).trans
      (.of_touches (touches_withPort _ _)))

theorem supervisionSecond_sameClosings : SameClosings s (supervisionSecond s) :=
  supervisionSecond_kept (P := fun u => SameClosings s u) (fun _ _ hf hu => hu.trans (.of_touches hf))
    (fun u hu => hu.trans (enteredSafe_sameClosings u)) s (.refl s)

/-- R162: a record that closes interval n holds n. -/
theorem closeAct_interval (n : Nat) (d : Dir) : ((closeAct n d s).act d).closing.interval = n := by
  unfold closeAct; dsimp only
  split
  next h => exact h
  · split <;> simp

theorem closeAct_other (n : Nat) {d e : Dir} (h : e ≠ d) : (closeAct n d s).act e = s.act e := by
  unfold closeAct; dsimp only
  split
  · rfl
  · split <;> simp [h]

theorem eachDir_closeAct_closed (n : Nat) : recordsClosed n (eachDir (closeAct n) s) := by
  intro d
  cases d with
  | up =>
    rw [eachDir, closeAct_other _ _ (by decide)]
    exact closeAct_interval s n .up
  | down => exact closeAct_interval _ n .down

theorem dispatchClose_interval (n : Nat) : (dispatchClose n s).dispatch.closing.interval = n := by
  unfold dispatchClose; split
  next h => exact h
  · rfl

theorem takeClosings_closed (n : Nat) : (takeClosings n s).dispatch.closing.interval = n
    ∧ recordsClosed n (takeClosings n s) := by
  refine ⟨?_, eachDir_closeAct_closed _ n⟩
  have hd : (takeClosings n s).dispatch = (dispatchClose n s).dispatch :=
    (eachDir_touches _ _ fun d u => closeAct_touches u n d).get .dispatch
  rw [hd]
  exact dispatchClose_interval s n

theorem tableBoundary_frame (m n : Nat) : Touches [.table, .port] (takeClosings m s) (tableBoundary m n s) := by
  unfold tableBoundary; dsimp only
  split
  · exact (setEntries_touches _ _).comp (raise_touches _ _)
  · exact (setEntries_touches _ _).mono (by decide)

end

/-- R146, R162: interval n is closed at the dispatcher. -/
def DispatchClosed (n : Nat) (s : State) : Prop := s.dispatch.closing.interval = n

section
variable {b : Turn}

theorem dispatchSecond_dispatchClosed (n : Nat) : Kept (DispatchClosed n) dispatchSecond := by
  intro s hs
  obtain ⟨_, _, _, _, hd⟩ := dispatchSecond_dispatch s
  rw [DispatchClosed, hd]
  exact hs

theorem tableBoundary_dispatchClosed (m n : Nat) (s : State) : DispatchClosed m (tableBoundary m n s) := by
  have hd : (tableBoundary m n s).dispatch = (takeClosings m s).dispatch := (tableBoundary_frame s m n).get .dispatch
  rw [DispatchClosed, hd]
  exact (takeClosings_closed s m).1

theorem dispatchClosed_ignores {n : Nat} {fs : List Field} (h : .dispatch ∉ fs) : Ignores (DispatchClosed n) fs :=
  fun s t hf hs => by
    rw [DispatchClosed, show t.dispatch = s.dispatch from hf .dispatch h]; exact hs

theorem turnResponse_dispatchClosed (p : Part) : Kept (DispatchClosed b.ended) (turnResponse b p) := by
  have hframe : .dispatch ∉ partFields p → Kept (DispatchClosed b.ended) (turnResponse b p) :=
    fun h s => dispatchClosed_ignores h (turnResponse_frame b p s)
  cases p with
  | dispatchSecond => exact turnResponse_kept _ (dispatchSecond_dispatchClosed _) fun _ h => h
  | dispatchClose => exact turnResponse_kept _ (fun _ h => h) fun s _ => dispatchClose_interval s _
  | tableBoundary => exact turnResponse_kept _ (fun _ h => h) fun s _ => tableBoundary_dispatchClosed _ _ s
  | _ => exact hframe (by decide)

theorem SameClosings.closed {s t : State} {n : Nat} (h : SameClosings s t) (hs : recordsClosed n s) :
    recordsClosed n t := fun d => by rw [h d]; exact hs d

theorem ordersBoundary_closed (m n : Nat) (s : State) : recordsClosed m (ordersBoundary m n s) :=
  eachDir_closeAct_closed _ m

theorem tableBoundary_closed (m n : Nat) (s : State) : recordsClosed m (tableBoundary m n s) :=
  (SameClosings.of_touches (tableBoundary_frame s m n)).closed (takeClosings_closed s m).2

theorem turnResponse_recordsClosed (p : Part) : Kept (recordsClosed b.ended) (turnResponse b p) := by
  have hframe : .orders ∉ partFields p → Kept (recordsClosed b.ended) (turnResponse b p) := fun h s hs =>
    (SameClosings.of_touches (turnResponse_frame b p s) h).closed hs
  cases p with
  | dispatchSecond => exact turnResponse_kept _ (fun s => (dispatchSecond_sameClosings s).closed) fun _ h => h
  | ordersSecond =>
    exact turnResponse_kept _ (fun s => (eachDir_sameClosings s _ fun d u => actSecond_sameClosings u d).closed)
      fun _ h => h
  | supervisionSecond => exact turnResponse_kept _ (fun s => (supervisionSecond_sameClosings s).closed) fun _ h => h
  | ordersBoundary => exact turnResponse_kept _ (fun _ h => h) fun s _ => ordersBoundary_closed _ _ s
  | tableBoundary => exact turnResponse_kept _ (fun _ h => h) fun s _ => tableBoundary_closed _ _ s
  | _ => exact hframe (by decide)

/-- A law that one response establishes and the others keep holds after a run that holds the response. -/
theorem run_establishes {f : Part → State → State} {P : State → Prop} {ps : List Part} {p : Part} (hp : p ∈ ps)
    (hn : ps.Nodup) (h : ∀ u, P (f p u)) (hk : ∀ q, Kept P (f q)) (s : State) : P (run f ps s) := by
  obtain ⟨l₁, l₂, -, hrun⟩ := run_about hp hn s
  rw [hrun]
  exact run_kept l₂ (fun q _ => hk q) _ (h _)

end

/-! ### The table's entries (R64, R67, R68) -/

section
variable (s : State)

/-- R64: a boundary maps the entries, each keeping its id and seq. -/
theorem tableBoundary_entries (m n : Nat) : (tableBoundary m n s).table.entries =
    s.table.entries.map fun e => openedAt n (closedAt m (credited (takeClosings m s) e)) := by
  have htable : (takeClosings m s).table = s.table := (takeClosings_touches s m).get .table
  have hmap : ((takeClosings m s).table.entries.map (credited (takeClosings m s))).map
      (fun e => openedAt n (closedAt m e)) =
      s.table.entries.map fun e => openedAt n (closedAt m (credited (takeClosings m s) e)) := by
    rw [htable, List.map_map]; rfl
  rw [← hmap]
  unfold tableBoundary; dsimp only
  split <;> rfl

theorem credited_status (e : Entry) : (credited s e).id = e.id ∧ (credited s e).seq = e.seq
    ∧ (credited s e).status = e.status ∧ (credited s e).last = e.last := by
  unfold credited; split <;> exact ⟨rfl, rfl, rfl, rfl⟩

theorem credited_open {e : Entry} (h : e.status.isOpen = true) : credited s e = e :=
  if_neg fun ha => absurd h (by rw [ha]; decide)

/-- R67: an ACTIVE entry at its last interval closes, and stays closed. -/
theorem settled_closes {e : Entry} {m n : Nat} (ha : e.status = .active) (hl : e.last = m) :
    (openedAt n (closedAt m (credited s e))).id = e.id ∧ (openedAt n (closedAt m (credited s e))).seq = e.seq
      ∧ (openedAt n (closedAt m (credited s e))).status.isClosed = true := by
  obtain ⟨hid, hseq, hst, hlast⟩ := credited_status s e
  have hcloses : closesAt m (credited s e) = true := by simp [closesAt, hst, ha, hlast, hl]
  have hclosed : (closedAt m (credited s e)).status.isClosed = true := by
    rw [closedAt, if_pos hcloses]; dsimp only
    split <;> rfl
  have hstands : openedAt n (closedAt m (credited s e)) = closedAt m (credited s e) := by
    refine if_neg fun ho => absurd ho.1 ?_
    revert hclosed
    cases (closedAt m (credited s e)).status <;> simp [EntryStatus.isClosed, EntryStatus.isOpen]
  rw [hstands]
  refine ⟨?_, ?_, hclosed⟩ <;> rw [closedAt, if_pos hcloses]
  · exact hid
  · exact hseq

/-- R68: an open entry whose first interval begins becomes ACTIVE. -/
theorem settled_opens {e : Entry} {m n : Nat} (ho : e.status.isOpen = true) (hf : e.first = n) :
    openedAt n (closedAt m (credited s e)) = { e with status := .active } := by
  have hopen : closesAt m e = false := by
    have hn : e.status ≠ .active := fun ha => absurd ho (by rw [ha]; decide)
    simp [closesAt, hn]
  rw [credited_open s ho, closedAt, hopen, if_neg (by decide)]
  exact if_pos ⟨ho, hf⟩

end

end Sys2Proof.Machine
end

section
/-! SUPPORT. O41: the account, the stores and the trains after a boundary in any order (R16 to R18, R39, R115). -/

namespace Sys2Proof.Machine

set_option Elab.async false

/-! ### The account of a close (R16 to R18) -/

/-- R16 steps 2 to 4: the mass of a close. -/
def Account.closeMass (a : Account) (l : Limits) : Nat :=
  min 100000000 (a.mass + a.eC / workC l a.pCalc - ceilDiv a.eE (workE l a.pCalc))

/-- R18: whether a close at a pressure rebases. -/
def Account.rebasesAt (a : Account) (l : Limits) (p : Nat) : Bool :=
  !a.stale && decide (l.rebaseTol < ((a.pMeas : Int) - p).natAbs)

/-- R16 to R18: a BASED account after a close that brings it to mass m, rebasing or not. -/
def Account.closed (a : Account) (l : Limits) (m : Nat) (rebased : Bool) : Account :=
  { a with
    mass := m, pCalc := pressureFromMass l m a.tMeas, eC := 0, eE := 0
    lastClose := ⟨a.eC / workC l a.pCalc, ceilDiv a.eE (workE l a.pCalc), rebased⟩ }

section
variable (s : State)

theorem closedMass_mass : closedMass s =
    { s.account with
      mass := s.account.closeMass s.limits
      pCalc := pressureFromMass s.limits (s.account.closeMass s.limits) s.account.tMeas } := rfl

theorem closeRebases_eq {m p : Nat} (h : closedMass s = { s.account with mass := m, pCalc := p }) :
    closeRebases (closedMass s) s.limits = s.account.rebasesAt s.limits p := by rw [h]; rfl

/-- R18: the account of a close without a rebase has the close's mass, and with one the reading's. -/
theorem closedAccount_stands (h : closeRebases (closedMass s) s.limits = false) : closedAccount s = closedMass s := by
  rw [closedAccount, h, if_neg (by decide)]

theorem closedAccount_rebased (h : closeRebases (closedMass s) s.limits = true) :
    closedAccount s = (closedMass s).massFromReading s.limits := by
  rw [closedAccount, h, if_pos rfl]

/-- R18: whatever mass a close brings, a rebase takes the reading's. -/
theorem Account.massFromReading_closed (a : Account) (l : Limits) (m p : Nat) :
    ({ a with mass := m, pCalc := p } : Account).massFromReading l =
      { a with
        mass := massFromPressure l a.pMeas a.tMeas
        pCalc := pressureFromMass l (massFromPressure l a.pMeas a.tMeas) a.tMeas } := rfl

/-- R18: the mass that stands after a close. -/
def Account.massAfterClose (a : Account) (l : Limits) (rebased : Bool) : Nat :=
  if rebased then massFromPressure l a.pMeas a.tMeas else a.closeMass l

/-- R16 to R18: the account of a BASED close. -/
theorem accountClose_closed (h : s.account.basis = .based) {r : Bool}
    (hr : s.account.rebasesAt s.limits (pressureFromMass s.limits (s.account.closeMass s.limits) s.account.tMeas) = r) :
    (accountClose s).account = s.account.closed s.limits (s.account.massAfterClose s.limits r) r := by
  have hm := closedMass_mass s
  have hc : closeRebases (closedMass s) s.limits = r := (closeRebases_eq s hm).trans hr
  rw [accountClose_based h, hc]
  cases r with
  | false =>
    have hmass : s.account.massAfterClose s.limits false = s.account.closeMass s.limits := if_neg (by decide)
    rw [closedAccount_stands s hc, hm, hmass]
    rfl
  | true =>
    have hmass : s.account.massAfterClose s.limits true =
        massFromPressure s.limits s.account.pMeas s.account.tMeas := if_pos rfl
    rw [closedAccount_rebased s hc, hm, Account.massFromReading_closed, hmass]
    rfl

/-- R18: a close that rebases raises REBASED. -/
theorem accountClose_latched (h : s.account.basis = .based) (hr : closeRebases (closedMass s) s.limits = true) :
    Latched .rebased (accountClose s) := by
  have hraised : ∀ a, Latched .rebased (closeBasisChange (raise .rebased (s.withAccount a))) := fun a =>
    (basisChangeAt_portGrows _ _).2 _ (latched_raise _ _)
  unfold accountClose
  simp only [h, hr, if_true]
  exact hraised _

end

/-! ### The boundary's run, one field at a time -/

section
variable {order : List Part} {b : Turn}

/-- What a run through the responses to a boundary leaves of a figure that one of them alone moves. -/
theorem boundaryRun_figure {p : Part} (hp : answersSecond p = false) {α : Type} (g : State → α)
    (hg : ∀ q, answersSecond q = false → q ≠ p → ∀ u, g (respondBoundary b q u) = g u) (s : State) :
    ∃ u, Touches [.account, .heat, .table, .proj, .trains, .dispatch, .orders, .port] s u ∧ g u = g s
      ∧ PortGrows (respondBoundary b p u) (run (respondBoundary b) (boundaryOrder order) s)
      ∧ g (run (respondBoundary b) (boundaryOrder order) s) = g (respondBoundary b p u) := by
  have hmem := (mem_boundaryOrder order p).mpr hp
  obtain ⟨l₁, l₂, hl, hrun⟩ := run_about (f := respondBoundary b) hmem (nodup_boundaryOrder order) s
  have hstands : ∀ l : List Part, (∀ q ∈ l, q ∈ boundaryOrder order ∧ q ≠ p) → ∀ u, g (run (respondBoundary b) l u) = g u :=
    fun l h => run_keeps g l fun q hq => hg q ((mem_boundaryOrder order q).mp (h q hq).1) (h q hq).2
  refine ⟨run (respondBoundary b) l₁ s, run_touches l₁ (fun q _ u => respondBoundary_touches u b q) s,
    hstands l₁ (fun q hq => hl q (List.mem_append_left _ hq)) s, ?_, ?_⟩ <;> rw [hrun]
  · exact run_rel PortGrows.refl (fun _ _ _ => PortGrows.trans) l₂ (fun q _ u => respondBoundary_portGrows u b q) _
  · exact hstands l₂ (fun q hq => hl q (List.mem_append_right _ hq)) _

theorem boundaryRun_account (s : State) : ∃ u : State, u.account = s.account ∧ u.limits = s.limits
    ∧ (run (respondBoundary b) (boundaryOrder order) s).account = (accountClose u).account
    ∧ PortGrows (accountClose u) (run (respondBoundary b) (boundaryOrder order) s) := by
  have hfields : ∀ q, answersSecond q = false → q ≠ .accountClose → .account ∉ partFields q := by
    intro q; cases q <;> decide
  obtain ⟨u, hu, hsame, hport, hrun⟩ := boundaryRun_figure (order := order) (b := b) (p := .accountClose) rfl State.account
    (fun q hq hne v => respondBoundary_frame b q v .account (hfields q hq hne)) s
  exact ⟨u, hsame, hu.get .limits, hrun, hport⟩

/-- R39: each store loses its standing loss, and the summary stands. -/
theorem boundaryRun_heat (s : State) : (run (respondBoundary b) (boundaryOrder order) s).heat = (storesLoss s).heat := by
  have hfields : ∀ q, answersSecond q = false → q ≠ .storesLoss → .heat ∉ partFields q := by
    intro q; cases q <;> decide
  obtain ⟨u, hu, hsame, -, hrun⟩ := boundaryRun_figure (order := order) (b := b) (p := .storesLoss) rfl State.heat
    (fun q hq hne v => respondBoundary_frame b q v .heat (hfields q hq hne)) s
  have hlimits : u.limits = s.limits := hu.get .limits
  rw [hrun]
  show (storesLoss u).heat = (storesLoss s).heat
  unfold storesLoss State.store
  rw [hsame, hlimits]
  rfl

/-- R115: the day boundary clears the day's counts. -/
theorem boundaryRun_train (s : State) (x : TrainIx) : (run (respondBoundary b) (boundaryOrder order) s).train x =
    if b.newDay = true then (s.train x).newDay else s.train x := by
  have hfields : ∀ q, answersSecond q = false → q ≠ .trainsDay → .trains ∉ partFields q := by
    intro q; cases q <;> decide
  obtain ⟨u, -, hsame, -, hrun⟩ := boundaryRun_figure (order := order) (b := b) (p := .trainsDay) rfl State.trains
    (fun q hq hne v => respondBoundary_frame b q v .trains (hfields q hq hne)) s
  have hx : u.train x = s.train x := congrArg (fun v : Trains => v.train.get x) hsame
  rw [State.train, hrun]
  show (trainsDay b u).train x = _
  unfold trainsDay; split
  · rw [← hx]; simp [trainsNewDay, State.train]
  · exact hx

theorem boundaryRun_onInterval {s : State} (hd : s.due = []) (hs : s.proj.state ≠ .unavailable) :
    OnInterval (run (respondBoundary b) (boundaryOrder order) s) :=
  run_onInterval s (fun p u => respondBoundary_ahead u b p) (fun _ => rfl)
    ((mem_boundaryOrder order _).mpr rfl) (nodup_boundaryOrder order) hd hs

theorem boundaryRun_touches (s : State) :
    Touches [.account, .heat, .table, .proj, .trains, .dispatch, .orders, .port] s
      (run (respondBoundary b) (boundaryOrder order) s) :=
  run_touches _ (fun q _ u => respondBoundary_touches u b q) s

end

end Sys2Proof.Machine
end

section
/-! SUPPORT. O41: a boundary reads nothing of what is due to a second (log 24). -/

namespace Sys2Proof.Machine

set_option Elab.async false

/-! ### Operations that do not read what is due -/

/-- What is due passes through f unread. -/
def Blind (f : State → State) : Prop := ∀ s ds, f (s.withDue ds) = (f s).withDue ds

theorem Blind.comp {f g : State → State} (hf : Blind f) (hg : Blind g) : Blind fun s => g (f s) := fun s ds => by
  dsimp only
  rw [hf, hg]

theorem Blind.ite {c : State → Prop} [∀ s, Decidable (c s)] {f g : State → State}
    (hc : ∀ s ds, c (s.withDue ds) ↔ c s) (hf : Blind f) (hg : Blind g) : Blind fun s => if c s then f s else g s := by
  intro s ds
  dsimp only
  by_cases h : c s
  · rw [if_pos h, if_pos ((hc s ds).mpr h), hf]
  · rw [if_neg h, if_neg (mt (hc s ds).mp h), hg]

theorem Blind.id : Blind fun s => s := fun _ _ => rfl

theorem raise_blind (n : Notice) : Blind (raise n) := fun _ _ => rfl

@[simp] theorem withDue_act (s : State) (ds : List Due) (d : Dir) : (s.withDue ds).act d = s.act d := by cases d <;> rfl

/-- A record written from the record as it stands. -/
theorem setAct_blind (d : Dir) (v : Activation → Activation) : Blind fun s => s.setAct d (v (s.act d)) := by
  intro s ds
  cases d <;> rfl

theorem eachDir_blind {f : Dir → State → State} (hf : ∀ d, Blind (f d)) : Blind (eachDir f) := (hf .up).comp (hf .down)

theorem releaseAct_blind (d : Dir) (why : ReleaseReason) : Blind (releaseAct d why) := by
  intro s ds
  have hidle : ∀ v : Activation → Activation, (s.withDue ds).setAct d (v (s.act d)) = (s.setAct d (v (s.act d))).withDue ds :=
    fun v => by simpa using setAct_blind d v s ds
  unfold releaseAct
  simp only [withDue_act]
  split
  · rfl
  · exact hidle fun a => { a with state := .idle, confirmLeft := 0 }
  · have h := hidle fun a => { a with state := .idle, holdLeft := 0, lastRelease := why }
    split
    · exact h
    · exact (congrArg (raise .order) h).trans (raise_blind _ _ _)

theorem closeAct_blind (n : Nat) (d : Dir) : Blind (closeAct n d) := by
  have hset := setAct_blind d fun a =>
    { a with closing := ⟨n, a.servedKj, a.requestedKj⟩, servedKj := 0, requestedKj := 0 }
  exact Blind.ite (fun s ds => by rw [withDue_act]) .id
    (Blind.ite (fun s ds => by rw [withDue_act]; rfl) (hset.comp (raise_blind _)) hset)

theorem checkBacking_blind (n : Nat) (d : Dir) : Blind (checkBacking n d) :=
  Blind.ite (fun s ds => by rw [withDue_act]; rfl) (releaseAct_blind d _) .id

theorem ordersBoundary_blind (m n : Nat) : Blind (ordersBoundary m n) :=
  (eachDir_blind (checkBacking_blind n)).comp (eachDir_blind (closeAct_blind m))

theorem dispatchClose_blind (n : Nat) : Blind (dispatchClose n) :=
  Blind.ite (fun _ _ => Iff.rfl) .id fun _ _ => rfl

theorem takeClosings_blind (n : Nat) : Blind (takeClosings n) :=
  (dispatchClose_blind n).comp (eachDir_blind (closeAct_blind n))

/-- R64 steps 1 to 3 on the closings as they stand. -/
def settleEntries (m n : Nat) (s : State) : State :=
  let es := s.table.entries.map (credited s)
  let s' := s.setEntries (es.map fun e => openedAt n (closedAt m e))
  if es.any (closesAt m) then raise .entryClosed s' else s'

theorem credited_withDue (s : State) (ds : List Due) : credited (s.withDue ds) = credited s := by
  funext e
  unfold credited reserveCredit reserveShares
  simp only [withDue_act]
  rfl

theorem settleEntries_blind (m n : Nat) : Blind (settleEntries m n) := by
  have hset : Blind fun s =>
      s.setEntries ((s.table.entries.map (credited s)).map fun e => openedAt n (closedAt m e)) := fun s ds => by
    dsimp only
    rw [credited_withDue]
    rfl
  exact Blind.ite (fun s ds => by rw [credited_withDue]; rfl) (hset.comp (raise_blind _)) hset

theorem tableBoundary_blind (m n : Nat) : Blind (tableBoundary m n) :=
  (takeClosings_blind m).comp (settleEntries_blind m n)

theorem storesLoss_blind : Blind storesLoss := fun _ _ => rfl

theorem trainsDay_blind (b : Turn) : Blind (trainsDay b) :=
  Blind.ite (fun _ _ => Iff.rfl) (fun _ _ => rfl) .id

theorem answerInFlight_blind (r : Result) (p : List Byte) : Blind (answerInFlight r p) := by
  intro s ds
  cases h : s.port.inFlight <;> simp only [answerInFlight, State.withDue_port, h]
  rfl

theorem countRestart_blind : Blind countRestart := by
  intro s ds
  have hcount : ∀ c, Blind fun s => if s.proj.restarts < 4 then
      s.withProj { s.proj with trial := .waiting c, restarts := s.proj.restarts + 1 }
      else answerInFlight .retryLater [] (endTrial s) := fun c =>
    Blind.ite (fun _ _ => Iff.rfl) (fun _ _ => rfl) fun s ds => answerInFlight_blind _ _ (endTrial s) ds
  cases h : s.proj.trial with
  | none => simp only [countRestart, State.withDue_proj, h]
  | waiting c => simpa only [countRestart, State.withDue_proj, h] using hcount c s ds
  | running c l => simpa only [countRestart, State.withDue_proj, h] using hcount c s ds

theorem startWalkAt_blind (n : Nat) : Blind (startWalkAt n) := fun _ _ => rfl

theorem basisChangeAt_blind (n : Nat) : Blind (basisChangeAt n) := by
  intro s ds
  have hwalk := (startWalkAt_blind n).comp countRestart_blind s ds
  have hstart : Blind fun s => if s.account.basis = .based ∧ s.clock.running = true then startWalkAt n s else s :=
    Blind.ite (fun _ _ => Iff.rfl) (startWalkAt_blind n) .id
  cases h : s.proj.state with
  | unavailable => simpa only [basisChangeAt, State.withDue_proj, h] using hstart s ds
  | stale => simpa only [basisChangeAt, State.withDue_proj, h] using hwalk
  | valid => simpa only [basisChangeAt, State.withDue_proj, h] using hwalk

theorem basisChange_blind : Blind basisChange := fun s ds => basisChangeAt_blind s.clock.n s ds

/-! ### The close, with only seconds due (R90) -/

/-- Every response that is due is to a second. -/
def OnlySeconds (ds : List Due) : Prop := ∀ d ∈ ds, d.toBoundary = false

theorem intervalOf_seconds (p : Part) {s : State} (h : OnlySeconds s.due) : intervalOf p s = s.clock.n := by
  have hnone : s.due.find? (fun d => d.toBoundary && decide (d.part = p)) = none := by
    rw [List.find?_eq_none]
    intro d hd
    simp [h d hd]
  unfold intervalOf
  rw [hnone]

theorem closeBasisChange_seconds {s : State} (h : OnlySeconds s.due) : closeBasisChange s = basisChange s := by
  rw [closeBasisChange, intervalOf_seconds _ h, basisChange]

/-- R16 to R18: the close before its basis change. -/
def closeTaken (s : State) : State :=
  let rebases := closeRebases (closedMass s) s.limits
  let s' := s.withAccount
    { closedAccount s with eC := 0, eE := 0, lastClose := ⟨chargedMass s, dischargedMass s, rebases⟩ }
  if rebases then raise .rebased s' else s'

theorem accountClose_taken {s : State} (h : s.account.basis = .based) :
    accountClose s = closeBasisChange (closeTaken s) := by
  unfold accountClose
  simp only [h]
  rfl

theorem closeTaken_blind : Blind closeTaken := by
  have hset : Blind fun s => s.withAccount
      { closedAccount s with
        eC := 0, eE := 0, lastClose := ⟨chargedMass s, dischargedMass s, closeRebases (closedMass s) s.limits⟩ } :=
    fun _ _ => rfl
  exact Blind.ite (fun _ _ => Iff.rfl) (hset.comp (raise_blind _)) hset

theorem accountClose_seconds {s : State} {ds : List Due} (hd : s.due = []) (hs : OnlySeconds ds) :
    accountClose (s.withDue ds) = (accountClose s).withDue ds := by
  cases h : s.account.basis with
  | unbased => rw [accountClose_unbased h, accountClose_unbased (s := s.withDue ds) h]; rfl
  | based =>
    have hdue : (closeTaken s).due = s.due := by
      unfold closeTaken; dsimp only
      split <;> rfl
    rw [accountClose_taken h, accountClose_taken (s := s.withDue ds) h, closeTaken_blind,
      closeBasisChange_nothing _ (hdue.trans hd), closeBasisChange_seconds (s := (closeTaken s).withDue ds) hs,
      basisChange_blind]

theorem respondBoundary_seconds {s : State} {ds : List Due} (hd : s.due = []) (hs : OnlySeconds ds) (b : Turn) (p : Part) :
    respondBoundary b p (s.withDue ds) = (respondBoundary b p s).withDue ds := by
  cases p with
  | accountClose => exact accountClose_seconds hd hs
  | storesLoss => exact storesLoss_blind s ds
  | tableBoundary => exact tableBoundary_blind _ _ s ds
  | dispatchClose => exact dispatchClose_blind _ s ds
  | ordersBoundary => exact ordersBoundary_blind _ _ s ds
  | trainsDay => exact trainsDay_blind b s ds
  | projectionBoundary => exact basisChange_blind s ds
  | _ => rfl

theorem run_seconds {ds : List Due} (hs : OnlySeconds ds) (b : Turn) : ∀ (ps : List Part) (s : State), s.due = [] →
    run (respondBoundary b) ps (s.withDue ds) = (run (respondBoundary b) ps s).withDue ds
  | [], _, _ => rfl
  | p :: ps, s, hd => by
    rw [run_cons, run_cons, respondBoundary_seconds hd hs]
    exact run_seconds hs b ps _ (((respondBoundary_touches s b p).get .due).trans hd)

end Sys2Proof.Machine
end

section
/-! SUPPORT. O41: a second that ends an interval, with its responses to the second put off, is a boundary (log 24). -/

namespace Sys2Proof.Machine

set_option Elab.async false

/-! ### An order that names each response to a boundary -/

theorem firsts_of_nodup : ∀ {l : List Part}, l.Nodup → firsts l = l
  | [], _ => rfl
  | p :: l, h => by
    obtain ⟨hp, hl⟩ := List.nodup_cons.mp h
    rw [firsts, firsts_of_nodup hl, List.filter_eq_self.mpr]
    exact fun q hq => by simpa using fun hqp : q = p => hp (hqp ▸ hq)

theorem firsts_append : ∀ l m : List Part, firsts (l ++ m) = firsts l ++ (firsts m).filter fun p => !l.contains p
  | [], m => by simp [firsts]
  | q :: l, m => by
    rw [List.cons_append, firsts, firsts_append l m, List.filter_append, firsts, List.cons_append, List.filter_filter]
    congr 3
    funext p
    by_cases h : p = q <;> simp [h]

/-- An order of every response to a boundary is kept as it is named. -/
theorem boundaryOrder_named {l : List Part} (hn : l.Nodup) (hl : ∀ p, p ∈ l ↔ answersSecond p = false) :
    boundaryOrder l = l := by
  have hself : l.filter (fun p => !answersSecond p) = l :=
    List.filter_eq_self.mpr fun p hp => by simpa using (hl p).mp hp
  have hrest : ∀ m : List Part,
      ((firsts m).filter fun p => !l.contains p).filter (fun p => !answersSecond p) = [] := by
    intro m
    rw [List.filter_filter, List.filter_eq_nil_iff]
    intro p _
    by_cases h : answersSecond p = true
    · simp [h]
    · simp [(hl p).mpr (by simpa using h)]
  rw [boundaryOrder, fullOrder, List.append_assoc, firsts_append, firsts_of_nodup hn, List.filter_append, hself, hrest,
    List.append_nil]

/-! ### A second whose responses to the second are put off -/

section
variable {order : List Part} {s : State}

theorem secondParts_contains (p : Part) : secondParts.contains p = answersSecond p := by cases p <;> rfl

/-- The response that is due to a second, or to the boundary it raised. -/
def dueOf (b : Turn) (p : Part) : Due := if answersSecond p then .second p else .boundary b p

theorem dueOf_part (b : Turn) (p : Part) : (dueOf b p).part = p := by unfold dueOf; split <;> rfl

theorem duesAfterClock_raised (b : Turn) : duesAfterClock order (some b) = (afterClock order).map (dueOf b) := by
  have hone : (fun p => if answersSecond p then [Due.second p] else [Due.boundary b p]) = fun p => [dueOf b p] := by
    funext p
    unfold dueOf
    split <;> rfl
  show (afterClock order).flatMap (fun p => if answersSecond p then [Due.second p] else [Due.boundary b p]) = _
  rw [hone, List.map_eq_flatMap]

/-- The responses to a boundary in the order in which a second makes them. -/
def boundaryAfter (order : List Part) : List Part := (afterClock order).filter fun p => !answersSecond p

/-- The responses to a second other than the clock's, in their order. -/
def secondsPutOff (order : List Part) : List Part := beforeClock order ++ (afterClock order).filter answersSecond

theorem mem_boundaryAfter (p : Part) : p ∈ boundaryAfter order ↔ answersSecond p = false := by
  refine ⟨fun h => by simpa using (List.mem_filter.mp h).2, fun h => List.mem_filter.mpr ⟨mem_afterClock h, by simp [h]⟩⟩

theorem nodup_boundaryAfter : (boundaryAfter order).Nodup := nodup_afterClock.filter _

theorem secondsPutOff_perm : (secondsPutOff order).Perm (secondParts.filter (· ≠ .clockSecond)) := by
  obtain ⟨l₁, l₂, hl, h₁, h₂, hb, ha⟩ := order_about_clock order
  have heq : secondsPutOff order = (l₁ ++ l₂).filter answersSecond := by
    rw [secondsPutOff, hb, ha, List.filter_append, List.filter_append, List.filter_filter]
    simp
  have hn := nodup_fullOrder order
  rw [hl] at hn
  have hnodup : (l₁ ++ l₂).Nodup := hn.sublist (List.Sublist.append_left (List.sublist_cons_self ..) _)
  rw [heq, List.perm_ext_iff_of_nodup (hnodup.filter _) (by decide)]
  intro p
  have hmem : p ∈ l₁ ++ l₂ ↔ p ≠ .clockSecond := by
    have hp := mem_fullOrder order p
    rw [hl, List.mem_append, List.mem_cons] at hp
    rw [List.mem_append]
    refine ⟨fun h hc => ?_, fun hne => ?_⟩
    · subst hc; exact h.elim h₁ h₂
    · exact hp.imp_right fun h => h.resolve_left hne
  rw [List.mem_filter, hmem]
  cases p <;> decide

theorem second_parts (l : List Part) : (l.map Due.second).map Due.part = l :=
  List.map_map.trans (List.map_id l)

theorem onlySeconds_map (l : List Part) : OnlySeconds (l.map .second) := by
  intro d hd
  obtain ⟨p, -, rfl⟩ := List.mem_map.mp hd
  rfl

/-- Of some responses those to a second are put off. -/
theorem respondOrPutOff_seconds (b : Turn) (ps : List Part) (s : State) :
    respondOrPutOff secondParts (ps.map (dueOf b)) s =
      run (respondBoundary b) (ps.filter fun p => !answersSecond p)
        (s.withDue (s.due ++ (ps.filter answersSecond).map .second)) := by
  have hlater : (ps.map (dueOf b)).filter (fun d => secondParts.contains d.part) =
      (ps.filter answersSecond).map .second := by
    rw [List.filter_map]
    have hpart : ((fun d : Due => secondParts.contains d.part) ∘ dueOf b) = answersSecond := by
      funext p
      rw [Function.comp_apply, dueOf_part, secondParts_contains]
    rw [hpart]
    refine List.map_congr_left fun p hp => ?_
    exact if_pos (List.mem_filter.mp hp).2
  have hnow : (ps.map (dueOf b)).filter (fun d => !secondParts.contains d.part) =
      (ps.filter fun p => !answersSecond p).map (.boundary b) := by
    rw [List.filter_map]
    have hpart : ((fun d : Due => !secondParts.contains d.part) ∘ dueOf b) = fun p => !answersSecond p := by
      funext p
      rw [Function.comp_apply, dueOf_part, secondParts_contains]
    rw [hpart]
    refine List.map_congr_left fun p hp => ?_
    exact if_neg (by simpa using (List.mem_filter.mp hp).2)
  rw [respondOrPutOff, hlater, hnow, respondAll_map]
  rfl

/-- The responses to a second that come before the clock's own, put off. -/
theorem respondOrPutOff_before (hd : s.due = []) : respondOrPutOff secondParts ((beforeClock order).map .second) s =
    s.withDue ((beforeClock order).map .second) := by
  have hall : ∀ p ∈ beforeClock order, answersSecond p = true := fun p hp => (List.mem_filter.mp hp).2
  have hdue : (beforeClock order).map Due.second = (beforeClock order).map (dueOf (turnOf s)) :=
    List.map_congr_left fun p hp => (if_pos (hall p hp)).symm
  have hnone : (beforeClock order).filter (fun p => !answersSecond p) = [] :=
    List.filter_eq_nil_iff.mpr fun p hp => by simp [hall p hp]
  rw [hdue, respondOrPutOff_seconds, hnone, List.filter_eq_self.mpr hall, hd, List.nil_append, ← hdue]
  rfl

theorem secondNow_putOff (hd : s.due = []) (he : secondEnds s = true) : secondNow ⟨order, secondParts⟩ s =
    (run (respondBoundary (turnOf s)) (boundaryAfter order) (endInterval s)).withDue
      ((secondsPutOff order).map .second) := by
  have hraised : turnRaised (s.withDue ((beforeClock order).map .second)) = some (turnOf s) := if_pos he
  have hended : clockSecond (s.withDue ((beforeClock order).map .second)) =
      (endInterval s).withDue ((beforeClock order).map .second) := if_pos he
  unfold secondNow; dsimp only
  rw [settleForSecond_nothing hd, respondOrPutOff_before hd, hraised, hended, duesAfterClock_raised,
    respondOrPutOff_seconds, secondsPutOff, List.map_append]
  have hputOff : OnlySeconds ((beforeClock order).map .second ++ ((afterClock order).filter answersSecond).map .second) := by
    rw [← List.map_append]
    exact onlySeconds_map _
  exact run_seconds hputOff (turnOf s) _ (endInterval s) hd

end

/-! ### The interval that a second ends -/

section
variable {order : List Part} {s : State}

/-- What a second that ends the interval leaves: the responses before the clock's own, the new interval, and the rest. -/
def secondEnded (order : List Part) (s : State) : State :=
  run (turnResponse (turnOf s)) (afterClock order) (endInterval (run respondSecond (beforeClock order) s))

theorem secondNow_ended (hd : s.due = []) (he : secondEnds s = true) : secondNow ⟨order, []⟩ s = secondEnded order s :=
  secondNow_ending hd he

theorem turnRun_touches (b : Turn) (ps : List Part) (s : State) :
    Touches responseFields s (run (turnResponse b) ps s) :=
  run_touches ps (fun p _ u => (turnResponse_frame b p u).mono (by cases p <;> decide)) s

/-- R64: the entries after the run are the table's own response to the entries before it. -/
theorem turnRun_entries (b : Turn) (s : State) : ∃ u, (run (turnResponse b) (afterClock order) s).table.entries =
    s.table.entries.map fun e => openedAt b.begun (closedAt b.ended (credited u e)) := by
  have hfields : ∀ q, q ≠ .tableBoundary → .table ∉ partFields q := by
    intro q; cases q <;> decide
  obtain ⟨l₁, -, hsame, hrun⟩ := run_about_figure (f := turnResponse b) (mem_afterClock (order := order)
    (p := .tableBoundary) rfl) nodup_afterClock State.table
    (fun q _ hne u => turnResponse_frame b q u .table (hfields q hne)) s
  refine ⟨takeClosings b.ended (run (turnResponse b) l₁ s), ?_⟩
  rw [hrun, turnResponse_boundary rfl, ← hsame]
  exact tableBoundary_entries _ _ _

/-- R129: the clock's interval turns, whatever the responses before and after. -/
theorem ended_clock : (secondEnded order s).clock = (endInterval s).clock ∧ (secondEnded order s).due = s.due := by
  obtain ⟨hclock, hlimits, hdue⟩ := run_respondSecond_clock (beforeClock order) s
  have hafter := turnRun_touches (turnOf s) (afterClock order) (endInterval (run respondSecond (beforeClock order) s))
  constructor
  · rw [secondEnded, show _ = _ from hafter.get .clock, endInterval, endInterval, hclock, hlimits]
    rfl
  · exact (hafter.get .due).trans hdue

/-- R146: the dispatcher's closing holds the interval that ended. -/
theorem ended_dispatchClosed : (secondEnded order s).dispatch.closing.interval = s.clock.n :=
  run_establishes (P := DispatchClosed (turnOf s).ended) (p := .dispatchClose) (mem_afterClock rfl) nodup_afterClock
    (fun u => by rw [turnResponse_boundary rfl]; exact dispatchClose_interval u _) turnResponse_dispatchClosed _

/-- R162: so do the closings of both records. -/
theorem ended_recordsClosed : ∀ d, ((secondEnded order s).act d).closing.interval = s.clock.n :=
  run_establishes (P := recordsClosed (turnOf s).ended) (p := .ordersBoundary) (mem_afterClock rfl) nodup_afterClock
    (fun u => by rw [turnResponse_boundary rfl]; exact ordersBoundary_closed _ _ u) turnResponse_recordsClosed _

theorem ended_entries : ∃ u, (secondEnded order s).table.entries =
    s.table.entries.map fun e => openedAt (turnOf s).begun (closedAt s.clock.n (credited u e)) := by
  have hfields : ∀ q, .table ∉ partFields q ∨ answersSecond q = false := by
    intro q; cases q <;> decide
  have hbefore : (run respondSecond (beforeClock order) s).table = s.table :=
    run_keeps State.table _ (fun q hq u => respondSecond_frame q u .table
      ((hfields q).resolve_right (by simp [(List.mem_filter.mp hq).2]))) s
  obtain ⟨u, hu⟩ := turnRun_entries (order := order) (turnOf s) (endInterval (run respondSecond (beforeClock order) s))
  refine ⟨u, hu.trans ?_⟩
  show List.map _ (run respondSecond (beforeClock order) s).table.entries = _
  rw [hbefore]
  rfl

/-- R90: a walk of the new interval runs. -/
theorem ended_onInterval (hd : s.due = []) (hs : s.proj.state ≠ .unavailable) : OnInterval (secondEnded order s) := by
  have hbefore : Ahead s (run respondSecond (beforeClock order) s) :=
    run_ahead s (fun p u => respondSecond_ahead u p) _
  exact run_onInterval _ (fun p u => turnResponse_ahead u _ p) (fun u => turnResponse_boundary rfl _ u)
    (mem_afterClock rfl) nodup_afterClock (hbefore.due.trans hd) (hbefore.available hd hs)

/-- R64, R67: an ACTIVE entry at its last interval closes. -/
theorem ended_closes {e : Entry} (he : e ∈ s.table.entries) (ha : e.status = .active) (hl : e.last = s.clock.n) :
    ∃ f ∈ (secondEnded order s).table.entries, f.id = e.id ∧ f.seq = e.seq ∧ f.status.isClosed = true := by
  obtain ⟨u, hu⟩ := ended_entries (order := order) (s := s)
  rw [hu]
  exact ⟨_, List.mem_map_of_mem he, settled_closes u ha hl⟩

/-- R68: an open entry whose first interval begins becomes ACTIVE. -/
theorem ended_opens {e : Entry} (he : e ∈ s.table.entries) (ho : e.status.isOpen = true)
    (hf : e.first = (turnOf s).begun) :
    ∃ f ∈ (secondEnded order s).table.entries, f.id = e.id ∧ f.seq = e.seq ∧ f.status = .active := by
  obtain ⟨u, hu⟩ := ended_entries (order := order) (s := s)
  rw [hu]
  refine ⟨_, List.mem_map_of_mem he, ?_⟩
  rw [settled_opens u ho hf]
  exact ⟨rfl, rfl, rfl⟩

end

end Sys2Proof.Machine
end

section
open Sys2Proof Sys2Proof.Machine

set_option Elab.async false

/-- Settles O41: a boundary field by field of its run, a second that ends an interval as the clock's response and the blocks' run about it,
and one whose responses to the second are put off as the boundary of the same order. -/
theorem boundaryClosesAccountAndStores : Obligations.BoundaryClosesAccountAndStores := by
  have hboundary : ∀ (order : List Part) (s : State), inReset s = false → s.due = [] → s.clock.running = true →
      exec (.boundary ⟨order, []⟩) s = .next (run (respondBoundary (turnOf s)) (boundaryOrder order) (endInterval s)) :=
    fun order s hs hd hrun =>
      congrArg Host.Outcome.next ((unlessHeld_taken s _ hs).trans ((if_pos hrun).trans (boundaryNow_run hd)))
  refine ⟨fun order s hs hd hrun => ?_, fun order s hs hd hrun hl => ?_⟩
  · intro a charged discharged m p rebased m' dayPos
    have hexec := hboundary order s hs hd hrun
    obtain ⟨u, hua, hul, hacc, hport⟩ := boundaryRun_account (order := order) (b := turnOf s) (endInterval s)
    change u.account = s.account at hua
    change u.limits = s.limits at hul
    have hheat := boundaryRun_heat (order := order) (b := turnOf s) (endInterval s)
    have htrain := boundaryRun_train (order := order) (b := turnOf s) (endInterval s)
    have hwalk := boundaryRun_onInterval (order := order) (b := turnOf s) (s := endInterval s) hd
    have htouches := boundaryRun_touches (order := order) (b := turnOf s) (endInterval s)
    generalize run (respondBoundary (turnOf s)) (boundaryOrder order) (endInterval s) = t at *
    refine ⟨t, hexec, htouches.get .clock, fun hb => ?_, fun hb => ?_, fun hb hr => ?_, fun i => ?_, ?_, fun x => ?_,
      fun hp => hwalk hp, (endInterval_touches s).comp htouches⟩
    · have hclosed := accountClose_closed u (by rw [hua]; exact hb) (r := rebased) (by rw [hua, hul]; rfl)
      rw [hua, hul] at hclosed
      exact hacc.trans hclosed
    · rw [hacc, accountClose_unbased (by rw [hua]; exact hb), hua]
      rfl
    · refine hport.2 _ (accountClose_latched u (by rw [hua]; exact hb) ?_)
      refine (closeRebases_eq u (closedMass_mass u)).trans ?_
      rw [hua, hul]
      exact hr
    · rw [State.store, hheat]
      exact storesLoss_store (endInterval s) i
    · rw [hheat]; rfl
    · rw [htrain]
      simp only [turnOf, decide_eq_true_eq]
      rfl
  · intro n dayPos
    have he : secondEnds s = true := by simp [secondEnds, hrun, hl]
    have hsecond : ∀ off t, secondNow ⟨order, off⟩ s = t → exec (.secondEvent ⟨order, off⟩) s = .next t :=
      fun _ _ h => congrArg Host.Outcome.next ((unlessHeld_taken s _ hs).trans h)
    constructor
    · obtain ⟨hclock, hdue⟩ := ended_clock (order := order) (s := s)
      refine ⟨secondEnded order s, hsecond _ _ (secondNow_ended hd he), hclock, hdue.trans hd, ended_dispatchClosed,
        ended_recordsClosed, fun e => ended_closes, fun e => ended_opens, fun hp => ?_⟩
      obtain ⟨hstale, w, hw, hbase⟩ := ended_onInterval (order := order) hd hp
      exact ⟨hstale, w, hw, hbase.trans (congrArg Clock.n hclock)⟩
    · have hu := hboundary (boundaryAfter order) s hs hd hrun
      rw [boundaryOrder_named nodup_boundaryAfter mem_boundaryAfter] at hu
      refine ⟨_, _, boundaryAfter order, hsecond _ _ (secondNow_putOff hd he), hu, rfl, ?_, onlySeconds_map _⟩
      rw [State.withDue_due, second_parts]
      exact secondsPutOff_perm

end

section
/-! SUPPORT. A heat store by its list (R30, R31): its state, the side whose trains it takes, and what the requests on stores make of it
(R40, R41). -/

namespace Sys2Proof.Machine

set_option Elab.async false

/-! ### A store's state (R30, R31) -/

section
variable (v : Store)

theorem Store.holds_iff (d : Side) : v.holds d = true ↔ ∃ x ∈ v.trains, x.side = d := by simp [Store.holds]

theorem Store.holds_false_iff (d : Side) : v.holds d = false ↔ ∀ x ∈ v.trains, x.side ≠ d := by simp [Store.holds]

/-- R30: the state of a store in service follows the sides its list holds. -/
theorem Store.state_in_service (h : v.isolated = false) : v.state =
    if v.holds .charge then .charging else if v.holds .discharge then .discharging else .available := by
  simp [Store.state, h]

theorem Store.state_isolated_iff : v.state = .isolated ↔ v.isolated = true := by
  constructor
  · intro h
    by_contra hi
    rw [v.state_in_service (by simpa using hi)] at h
    split at h
    · cases h
    · split at h <;> cases h
  · exact fun h => if_pos h

/-- R30: a store is AVAILABLE exactly while it is in service and no train is on it. -/
theorem Store.state_available_iff : v.state = .available ↔ v.isolated = false ∧ v.trains = [] := by
  constructor
  · intro h
    have hi : v.isolated = false := by
      by_contra hi
      rw [v.state_isolated_iff.mpr (by simpa using hi)] at h
      cases h
    rw [v.state_in_service hi] at h
    refine ⟨hi, List.eq_nil_iff_forall_not_mem.mpr fun x hx => ?_⟩
    split at h
    · cases h
    next hc =>
      split at h
      · cases h
      next he =>
        cases hs : x.side
        · exact hc ((v.holds_iff .charge).mpr ⟨x, hx, hs⟩)
        · exact he ((v.holds_iff .discharge).mpr ⟨x, hx, hs⟩)
  · rintro ⟨hi, hl⟩
    simp [Store.state, Store.holds, hi, hl]

/-- R30: a store in a side's own state is in service and holds a train of the side. -/
theorem Store.of_state_busy {d : Side} (h : v.state = if d = .charge then .charging else .discharging) :
    v.isolated = false ∧ ∃ x ∈ v.trains, x.side = d := by
  have hi : v.isolated = false := by
    by_contra hi
    rw [v.state_isolated_iff.mpr (by simpa using hi)] at h
    cases d <;> cases h
  rw [v.state_in_service hi] at h
  refine ⟨hi, (v.holds_iff d).mp ?_⟩
  cases d <;> cases hc : v.holds .charge <;> cases he : v.holds .discharge <;> simp_all

/-- R31: a store takes trains of a side while it is AVAILABLE or in that side's own state. -/
theorem Store.takes_iff (d : Side) : v.takes d = true ↔
    v.state = .available ∨ v.state = if d = .charge then .charging else .discharging := by
  cases hs : v.state <;> cases d <;> simp [Store.takes, hs]

end

/-! ### Requests on stores (R40, R41) -/

theorem returnOf_none {b : Byte} (h : 2 ≤ b.toNat) : returnOf b = none := List.getElem?_eq_none h

section
variable {s : State} {index direction : Byte}

theorem ownStoreService_badArgument (h : 3 ≤ index.toNat ∨ 2 ≤ direction.toNat) :
    ownStoreService index direction s = answer 0x18 .badArgument [] s := by
  rcases h with h | h
  · simp only [ownStoreService, storeOf_none h]; rfl
  · cases hi : storeOf index <;> simp only [ownStoreService, returnOf_none h, hi] <;> rfl

theorem ownStoreSet_badIndex {mj : Word} (h : 3 ≤ index.toNat) :
    ownStoreSet index mj s = answer 0x19 .badArgument [] s := by
  simp only [ownStoreSet, storeOf_none h]; rfl

/-- R40: after STORE_SERVICE a store has its list and its heat, and its new isolation. -/
theorem serviceStore_store (i : StoreIx) (out : Bool) :
    (serviceStore i out s).store i = { s.store i with isolated := out } := by
  rw [serviceStore, State.store, basisChange_heat]
  exact (setStore_store s i i _).trans (if_pos rfl)

section
variable {i : StoreIx} (hi : storeOf index = some i)
include hi

theorem ownStoreService_wrongState {back : Bool} (hd : returnOf direction = some back)
    (h : (s.store i).state ≠ if back then .isolated else .available) :
    ownStoreService index direction s = answer 0x18 .wrongState [] s := by
  simp only [ownStoreService, hi, hd]; exact if_pos h

theorem ownStoreService_taken {back : Bool} (hd : returnOf direction = some back)
    (h : (s.store i).state = if back then .isolated else .available) :
    ownStoreService index direction s =
      answer 0x18 .ok (u8 ({ s.store i with isolated := !back } : Store).state.code) (serviceStore i (!back) s) := by
  simp only [ownStoreService, hi, hd, serviceStore_store]; exact if_neg (not_not_intro h)

variable {mj : Word}

theorem ownStoreSet_aboveCapacity (h : capacityMj s i < mj.toNat) :
    ownStoreSet index mj s = answer 0x19 .badArgument [] s := by
  simp only [ownStoreSet, hi]; exact if_pos h

theorem ownStoreSet_modeRefused (h : mj.toNat ≤ capacityMj s i) (hm : s.mode ≠ .commissioning) :
    ownStoreSet index mj s = answer 0x19 .modeRefused [] s := by
  simp only [ownStoreSet, hi]; exact (if_neg (Nat.not_lt.mpr h)).trans (if_pos hm)

theorem ownStoreSet_taken (h : mj.toNat ≤ capacityMj s i) (hm : s.mode = .commissioning) :
    ownStoreSet index mj s = answer 0x19 .ok (u32 mj.toNat ++ u16 0)
      (recomputePools (s.setStore i { s.store i with contentKj := mj.toNat * 1000 })) := by
  have hmj : ({ s.store i with contentKj := mj.toNat * 1000 } : Store).contentMj = mj.toNat :=
    Nat.mul_div_cancel _ (by decide)
  have hrem : ({ s.store i with contentKj := mj.toNat * 1000 } : Store).contentRem = 0 := Nat.mul_mod_left _ _
  have hset : (recomputePools (s.setStore i { s.store i with contentKj := mj.toNat * 1000 })).store i =
      { s.store i with contentKj := mj.toNat * 1000 } := (setStore_store s i i _).trans (if_pos rfl)
  simp only [ownStoreSet, hi, hset, hmj, hrem]
  exact (if_neg (Nat.not_lt.mpr h)).trans (if_neg (not_not_intro hm))

end

end

end Sys2Proof.Machine
end

section
open Sys2Proof Sys2Proof.Machine

set_option Elab.async false

/-- Settles O21: each refusal and each effect on the accepted state, whose stores, limits and mode are those before the frame. -/
theorem storeRequestsAnswer : Obligations.StoreRequestsAnswer := by
  refine fun s h index direction mj => ⟨fun hg => ?_, fun hg => ?_⟩
  · rw [Refuses, Refuses, exec_storeService h index direction hg]
    refine ⟨fun hbad => by rw [ownStoreService_badArgument hbad], fun i hi => ⟨?_, ?_, ?_, ?_⟩⟩
    · rintro rfl hstate
      rw [ownStoreService_wrongState hi (back := false) rfl (by simpa using hstate)]
    · rintro rfl hstate
      rw [ownStoreService_wrongState hi (back := true) rfl (by simpa using hstate)]
    · rintro rfl hstate
      have hiso : ({ s.store i with isolated := true } : Store).state = .isolated :=
        (Store.state_isolated_iff _).mpr rfl
      rw [ownStoreService_taken hi (back := false) rfl (by simpa using hstate), serviceStore, accepted_store]
      exact congrArg (fun c : StoreState => Host.Outcome.next (answer 0x18 .ok (u8 c.code) _)) hiso
    · rintro rfl hstate hempty
      have havail : ({ s.store i with isolated := false } : Store).state = .available :=
        (Store.state_available_iff _).mpr ⟨rfl, hempty⟩
      rw [ownStoreService_taken hi (back := true) rfl (by simpa using hstate), serviceStore, accepted_store]
      exact congrArg (fun c : StoreState => Host.Outcome.next (answer 0x18 .ok (u8 c.code) _)) havail
  · have hcap : ∀ i, capacityMj s.accepted i = s.limits.capHs.get i := fun i => by rw [capacityMj, accepted_limits]
    rw [Refuses, Refuses, exec_storeSet h index mj hg]
    refine ⟨fun hbad => by rw [ownStoreSet_badIndex hbad], fun i hi => ?_⟩
    rw [← hcap]
    refine ⟨fun habove => ?_, fun hle hmode => ?_, fun hle hmode => ?_⟩
    · rw [ownStoreSet_aboveCapacity hi habove]
    · rw [ownStoreSet_modeRefused hi hle (by rwa [accepted_mode])]
    · rw [ownStoreSet_taken hi hle (by rwa [accepted_mode]), accepted_store]

end

section
/-! SUPPORT. Which store a train is given and which store a list is moved to (R31, R34, R36), and what a move leaves of each store. -/

namespace Sys2Proof.Machine

set_option Elab.async false

/-! ### The largest figure, the lowest index among equals -/

/-- Of two stores i is to be preferred: its figure is larger, or the same at no higher an index. -/
abbrev Preferred (figure : StoreIx → Nat) (i j : StoreIx) : Prop :=
  figure j < figure i ∨ figure j = figure i ∧ StoreIx.all.idxOf i ≤ StoreIx.all.idxOf j

theorem Preferred.trans {figure : StoreIx → Nat} {i j k : StoreIx} (h : Preferred figure i j) (g : Preferred figure j k) :
    Preferred figure i k := by
  simp only [Preferred] at *; omega

theorem Preferred.antisymm {figure : StoreIx → Nat} {i j : StoreIx} (h : Preferred figure i j)
    (g : Preferred figure j i) : i = j := by
  refine (List.idxOf_inj (StoreIx.mem_all i)).mp ?_
  simp only [Preferred] at *; omega

theorem largest_eq_none_iff (figure : StoreIx → Nat) (l : List StoreIx) : largest figure l = none ↔ l = [] := by
  cases l with
  | nil => simp [largest]
  | cons i l =>
    simp only [largest, reduceCtorEq, iff_false]
    split
    · simp
    · split <;> simp

/-- What largest gives of a list in index order is one of the list that is preferred to every other. -/
theorem largest_preferred (figure : StoreIx → Nat) : ∀ (l : List StoreIx) {i : StoreIx},
    l.Pairwise (fun j k => StoreIx.all.idxOf j < StoreIx.all.idxOf k) → largest figure l = some i →
      i ∈ l ∧ ∀ j ∈ l, Preferred figure i j
  | [], _, _, h => by simp [largest] at h
  | k :: l, i, hl, h => by
    obtain ⟨hk, hl⟩ := List.pairwise_cons.mp hl
    have hrefl : Preferred figure k k := .inr ⟨rfl, le_rfl⟩
    unfold largest at h
    split at h
    next hnone =>
      obtain rfl := (largest_eq_none_iff figure l).mp hnone
      obtain rfl := Option.some.inj h
      simpa using hrefl
    next j hj =>
      obtain ⟨hjl, hbest⟩ := largest_preferred figure l hl hj
      split at h <;> obtain rfl := Option.some.inj h
      next hle =>
        have hkj : Preferred figure k j := (Nat.lt_or_eq_of_le hle).imp_right fun he => ⟨he, (hk j hjl).le⟩
        refine ⟨List.mem_cons_self .., fun m hm => ?_⟩
        rcases List.mem_cons.mp hm with rfl | hm
        · exact hrefl
        · exact hkj.trans (hbest m hm)
      next hlt =>
        refine ⟨List.mem_cons_of_mem _ hjl, fun m hm => ?_⟩
        rcases List.mem_cons.mp hm with rfl | hm
        · exact .inl (Nat.not_le.mp hlt)
        · exact hbest m hm

theorem Picks.unique {figure : StoreIx → Nat} {q : StoreIx → Prop} {i j : StoreIx} (h : Picks figure q i)
    (g : Picks figure q j) : i = j := Preferred.antisymm (h.2 j g.1) (g.2 i h.1)

/-- R31, R34, R36: of the stores that qualify the model takes the one that Picks describes. -/
theorem largest_filter_iff {figure : StoreIx → Nat} {q : StoreIx → Bool} {p : StoreIx → Prop} (hq : ∀ j, q j = true ↔ p j)
    (i : StoreIx) : largest figure (StoreIx.all.filter q) = some i ↔ Picks figure p i := by
  have hmem : ∀ j, j ∈ StoreIx.all.filter q ↔ p j := fun j => by simp [hq]
  have hfound : ∀ {j}, largest figure (StoreIx.all.filter q) = some j → Picks figure p j := fun {j} h => by
    obtain ⟨hj, hbest⟩ := largest_preferred figure _ (List.Pairwise.filter q (by decide)) h
    exact ⟨(hmem j).mp hj, fun k hk => hbest k ((hmem k).mpr hk)⟩
  refine ⟨hfound, fun h => ?_⟩
  cases hl : largest figure (StoreIx.all.filter q) with
  | none =>
    have hi := (hmem i).mpr h.1
    rw [(largest_eq_none_iff _ _).mp hl] at hi
    cases hi
  | some j => rw [(hfound hl).unique h]

/-! ### The stores of R31, R34 and R36 -/

section
variable (s : State)

theorem takes_iff_openTo (d : Side) (i : StoreIx) : (s.store i).takes d = true ↔ OpenTo s d i := Store.takes_iff _ d

theorem storeFigure_eq (d : Side) :
    storeFigure s d = fun i => if d = .charge then roomKj s i else (s.store i).contentKj := by
  funext i; cases d <;> rfl

/-- R31: the store a train is given. -/
theorem chooseStore_iff (d : Side) (i : StoreIx) : chooseStore s d = some i ↔
    Picks (fun i => if d = .charge then roomKj s i else (s.store i).contentKj) (OpenTo s d) i := by
  rw [chooseStore, storeFigure_eq]
  exact largest_filter_iff (takes_iff_openTo s d) i

/-- R34: where the compressors of a full store go. -/
theorem fullTarget_iff (i j : StoreIx) : fullTarget s i = some j ↔
    Picks (roomKj s) (fun j => j ≠ i ∧ 0 < roomKj s j ∧ OpenTo s .charge j) j := by
  refine largest_filter_iff (fun k => ?_) j
  rw [Bool.and_eq_true, Bool.and_eq_true, decide_eq_true_eq, decide_eq_true_eq, takes_iff_openTo, and_assoc,
    and_comm (a := OpenTo s .charge k)]

/-- R36: the other stores that expanders may go to, above a mark. -/
abbrev DrawnFrom (i : StoreIx) (mark : Nat) : StoreIx → Prop :=
  Picks (fun j => (s.store j).contentKj) fun j => j ≠ i ∧ mark < (s.store j).contentKj ∧ OpenTo s .discharge j

theorem drawTarget_iff (i j : StoreIx) (mark : Nat) : drawTarget s i mark = some j ↔ DrawnFrom s i mark j := by
  refine largest_filter_iff (fun k => ?_) j
  rw [Bool.and_eq_true, Bool.and_eq_true, decide_eq_true_eq, decide_eq_true_eq, takes_iff_openTo, and_assoc,
    and_comm (a := OpenTo s .discharge k)]

/-- R36: where the expanders of a store below LOW_MARK, or empty, go. -/
theorem lowTarget_iff (i j : StoreIx) : lowTarget s i = some j ↔
    (let mark := s.limits.lowMark * 1000
     let held := (s.store i).contentKj
     held < mark ∧ DrawnFrom s i mark j
      ∨ ¬ (held < mark ∧ ∃ k, DrawnFrom s i mark k) ∧ held = 0 ∧ DrawnFrom s i 0 j) := by
  have hempty : (if (s.store i).contentKj = 0 then drawTarget s i 0 else none) = some j ↔
      (s.store i).contentKj = 0 ∧ DrawnFrom s i 0 j := by
    rw [← drawTarget_iff]; split <;> simp_all
  simp only [← drawTarget_iff] at hempty ⊢
  unfold lowTarget; dsimp only
  by_cases hlow : (s.store i).contentKj < s.limits.lowMark * 1000
  · cases drawTarget s i (s.limits.lowMark * 1000) <;> simp [hlow, hempty]
  · simp [hlow, hempty]

end

/-! ### A move of a list (R34, R36) -/

section
variable {s : State} {i j : StoreIx}

theorem moveTrains_store (hne : j ≠ i) (k : StoreIx) : (moveTrains i j s).store k =
    if k = i then { s.store i with trains := [] }
    else if k = j then { s.store j with trains := (s.store j).trains ++ (s.store i).trains } else s.store k := by
  unfold moveTrains; dsimp only
  by_cases hj : k = j
  · subst hj; simp [hne]
  · simp [hj]

end

end Sys2Proof.Machine
end

section
/-! SUPPORT. O56: the stores' lists (R30 to R36, R40). Each list is of one side, of RUNNING trains only, each train on one list and once,
and an ISOLATED store's list is empty; every operation on a store or a train record keeps that. -/

namespace Sys2Proof.Machine

set_option Elab.async false

/-! ### The law, list by list -/

/-- What StoreSeparation and StoreListLaw say together, of the trains one by one. -/
structure ListsSound (s : State) : Prop where
  oneSide : ∀ i, ∀ x ∈ (s.store i).trains, ∀ y ∈ (s.store i).trains, x.side = y.side
  running : ∀ i, ∀ x ∈ (s.store i).trains, (s.train x).state = .running
  nodup : ∀ i, (s.store i).trains.Nodup
  oneStore : ∀ i j x, x ∈ (s.store i).trains → x ∈ (s.store j).trains → i = j
  isolated : ∀ i, (s.store i).isolated = true → (s.store i).trains = []

/-- There are two sides: what is not of the one is of the other. -/
theorem Side.eq_of_ne {a b d : Side} (ha : a ≠ d) (hb : b ≠ d) : a = b := by
  cases a <;> cases b <;> cases d <;> simp at *

theorem storeSeparation_iff (s : State) : StoreSeparation s ↔
    ∀ i, ∀ x ∈ (s.store i).trains, ∀ y ∈ (s.store i).trains, x.side = y.side := by
  refine forall_congr' fun i => ⟨fun h x hx y hy => ?_, fun h => ?_⟩
  · rcases h with h | h
    all_goals
      rw [Store.holds_false_iff] at h
      exact Side.eq_of_ne (h x hx) (h y hy)
  · by_contra hboth
    simp only [not_or, Bool.not_eq_false, Store.holds_iff] at hboth
    obtain ⟨⟨x, hx, hsx⟩, y, hy, hsy⟩ := hboth
    have hsame := h x hx y hy
    rw [hsx, hsy] at hsame
    cases hsame

/-- A train occurs once over the three lists: once on each, and on one. -/
theorem nodup_stores_iff (f : StoreIx → List TrainIx) : (StoreIx.all.flatMap f).Nodup ↔
    (∀ i, (f i).Nodup) ∧ ∀ i j x, x ∈ f i → x ∈ f j → i = j := by
  rw [List.nodup_flatMap]
  refine and_congr ⟨fun h i => h i (StoreIx.mem_all i), fun h i _ => h i⟩ ⟨fun h i j x hi hj => ?_, fun h => ?_⟩
  · have hsymm : Std.Symm (Function.onFun List.Disjoint f) := ⟨fun _ _ hd => List.Disjoint.symm hd⟩
    by_contra hne
    exact h.forall (StoreIx.mem_all i) (StoreIx.mem_all j) hne hi hj
  · refine List.Pairwise.imp ?_ (show StoreIx.all.Pairwise (· ≠ ·) by decide)
    exact fun hne x hi hj => hne (h _ _ x hi hj)

theorem listsSound_iff (s : State) : ListsSound s ↔ StoreSeparation s ∧ StoreListLaw s := by
  rw [storeSeparation_iff, StoreListLaw, nodup_stores_iff]
  exact ⟨fun h => ⟨h.oneSide, h.running, ⟨h.nodup, h.oneStore⟩, h.isolated⟩,
    fun ⟨hside, hrun, ⟨hnodup, hone⟩, hiso⟩ => ⟨hside, hrun, hnodup, hone, hiso⟩⟩

/-- Lists that lose trains stay sound, if no train that stays leaves RUNNING and no store becomes ISOLATED that
holds a train. -/
theorem ListsSound.mono {s t : State} (hl : ∀ i, (t.store i).trains.Sublist (s.store i).trains)
    (hi : ∀ i, (t.store i).isolated = true → (s.store i).isolated = true ∨ (s.store i).trains = [])
    (hr : ∀ i, ∀ x ∈ (t.store i).trains, (s.train x).state = .running → (t.train x).state = .running)
    (h : ListsSound s) : ListsSound t where
  oneSide i x hx y hy := h.oneSide i x ((hl i).subset hx) y ((hl i).subset hy)
  running i x hx := hr i x hx (h.running i x ((hl i).subset hx))
  nodup i := (h.nodup i).sublist (hl i)
  oneStore i j x hx hy := h.oneStore i j x ((hl i).subset hx) ((hl j).subset hy)
  isolated i hiso := List.sublist_nil.mp ((hi i hiso).elim (h.isolated i) (fun hnil => hnil) ▸ hl i)

/-- The law reads the stores and the trains alone. -/
theorem listsSound_ignores {fs : List Field} (hh : .heat ∉ fs) (ht : .trains ∉ fs) : Ignores ListsSound fs := by
  intro s t hf
  have hstore : ∀ i, t.store i = s.store i := fun i => congrArg (fun v : Heat => v.store.get i) (hf .heat hh)
  have htrain : ∀ x, t.train x = s.train x := fun x => congrArg (fun v : Trains => v.train.get x) (hf .trains ht)
  exact .mono (fun i => by rw [hstore]) (fun i => by rw [hstore]; exact .inl) (fun i x _ => by rw [htrain]; exact fun h => h)

/-! ### Trains on no store -/

/-- The train is on no store. -/
def OffStores (x : TrainIx) (s : State) : Prop := ∀ i, x ∉ (s.store i).trains

theorem ListsSound.offStores {s : State} (h : ListsSound s) {x : TrainIx} (hx : (s.train x).state ≠ .running) :
    OffStores x s := fun i hi => hx (h.running i x hi)

theorem releaseStore_offStores (x : TrainIx) (s : State) : OffStores x (releaseStore x s) := fun i => by simp

theorem trainStore_none_iff (s : State) (x : TrainIx) : trainStore s x = none ↔ OffStores x s := by
  simp [trainStore, OffStores]

/-! ### Operations on a train record -/

theorem raise_listsSound (n : Notice) : Kept ListsSound (raise n) := fun s =>
  listsSound_ignores (by decide) (by decide) (raise_touches s n)

theorem basisChange_listsSound : Kept ListsSound basisChange := fun s =>
  listsSound_ignores (by decide) (by decide) (basisChange_touches s)

theorem releaseStore_listsSound (x : TrainIx) : Kept ListsSound (releaseStore x) := fun s =>
  .mono (fun i => by rw [releaseStore_store]; exact List.filter_sublist) (fun i hi => .inl (by simpa using hi)) (fun i y _ => by simp)

section
variable {s : State} {x : TrainIx} {v : Train}

/-- A record may be written that leaves the train RUNNING or that is of a train on no store. -/
theorem ListsSound.setTrain (h : ListsSound s) (hv : (s.train x).state = .running → v.state = .running ∨ OffStores x s) :
    ListsSound (s.setTrain x v) := by
  refine h.mono (t := s.setTrain x v) (fun i => .refl (s.store i).trains) (fun _ hi => .inl hi) fun i y hy hrun => ?_
  rw [setTrain_train]
  split
  next hyx =>
    subst hyx
    exact (hv hrun).resolve_right fun hoff => hoff i hy
  · exact hrun

theorem ListsSound.putTrainCovered (h : ListsSound s)
    (hv : (s.train x).state = .running → v.state = .running ∨ OffStores x s) : ListsSound (putTrainCovered x v s) :=
  h.setTrain hv

theorem ListsSound.putTrain (h : ListsSound s)
    (hv : (s.train x).state = .running → v.state = .running ∨ OffStores x s) : ListsSound (putTrain x v s) := by
  have hset := h.setTrain (v := classed s.limits x v) hv
  unfold Machine.putTrain; dsimp only
  split
  · exact hset
  · exact basisChange_listsSound _ hset

/-- A record that keeps its state may be written. -/
theorem ListsSound.setTrain_sameState (h : ListsSound s) (hv : v.state = (s.train x).state) :
    ListsSound (s.setTrain x v) := h.setTrain fun hr => .inl (hv.trans hr)

theorem ListsSound.putTrain_sameState (h : ListsSound s) (hv : v.state = (s.train x).state) :
    ListsSound (Machine.putTrain x v s) := h.putTrain fun hr => .inl (hv.trans hr)

/-- A record of a train that is not RUNNING may be written at will. -/
theorem ListsSound.putTrain_idle (h : ListsSound s) (hx : (s.train x).state ≠ .running) :
    ListsSound (Machine.putTrain x v s) := h.putTrain fun hr => absurd hr hx

/-- R108, R110: so may the record of a train that has just left its store. -/
theorem ListsSound.putTrain_released (h : ListsSound s) : ListsSound (Machine.putTrain x v (releaseStore x s)) :=
  (releaseStore_listsSound x s h).putTrain fun _ => .inr (releaseStore_offStores x s)

end


/-! ### The train sequencer (R101 to R117) -/

section
variable (x : TrainIx)

theorem stopFrom_listsSound (v : Train) : Kept ListsSound (stopFrom x v) := fun _ h => h.putTrain_released

theorem enterStopping_listsSound : Kept ListsSound (enterStopping x) := fun s => stopFrom_listsSound x _ s

section
variable {s : State} (h : ListsSound s) (hx : (s.train x).state ≠ .running)
include h hx

theorem enterReady_listsSound : ListsSound (enterReady x s) := raise_listsSound _ _ (h.putTrain_idle hx)

theorem enterCooldown_listsSound : ListsSound (enterCooldown x s) := raise_listsSound _ _ (h.putTrain_idle hx)

theorem enterIdle_listsSound : ListsSound (enterIdle x s) := raise_listsSound _ _ (h.putTrain_idle hx)

end

theorem expire_listsSound : Kept ListsSound (expire x) := by
  intro s h
  unfold expire; split
  next hx => exact enterReady_listsSound x h (by rw [hx]; decide)
  · exact enterStopping_listsSound x s h
  next hx => exact enterCooldown_listsSound x h (by rw [hx]; decide)
  next hx => exact enterIdle_listsSound x h (by rw [hx]; decide)
  all_goals exact h.setTrain_sameState rfl

theorem requestStart_listsSound : Kept ListsSound (requestStart x) := by
  intro s h
  unfold requestStart; dsimp only
  split
  · exact h
  next hjudged =>
    split
    · split
      · exact h
      · exact raise_listsSound _ _ (h.setTrain_sameState rfl)
    · refine h.putTrain_idle fun hx => hjudged ?_
      simp [startJudged, hx]

end

/-! ### Operations on the lists (R31, R34, R36) -/

/-- R31: a store that takes a side is in service, and any train on it is of that side. -/
theorem ListsSound.side_of_takes {s : State} (h : ListsSound s) {d : Side} {i : StoreIx} (hi : (s.store i).takes d = true) :
    (s.store i).isolated = false ∧ ∀ x ∈ (s.store i).trains, x.side = d := by
  rcases (Store.takes_iff _ d).mp hi with ha | ha
  · obtain ⟨hiso, hnil⟩ := (Store.state_available_iff _).mp ha
    exact ⟨hiso, fun x hx => by rw [hnil] at hx; cases hx⟩
  · obtain ⟨hiso, y, hy, hyd⟩ := Store.of_state_busy _ ha
    exact ⟨hiso, fun x hx => (h.oneSide i x hx y hy).trans hyd⟩

/-- A list of RUNNING trains of one side that are on no other store may be written to a store in service. -/
theorem ListsSound.setList {s : State} (h : ListsSound s) {j : StoreIx} {l : List TrainIx} {d : Side}
    (hiso : (s.store j).isolated = false) (hnodup : l.Nodup) (hrun : ∀ x ∈ l, (s.train x).state = .running)
    (hside : ∀ x ∈ l, x.side = d) (hone : ∀ x ∈ l, ∀ k, k ≠ j → x ∉ (s.store k).trains) :
    ListsSound (s.setStore j { s.store j with trains := l }) where
  oneSide i x hx y hy := by
    rw [setStore_store] at hx hy
    split at hx
    next hij => rw [if_pos hij] at hy; exact (hside x hx).trans (hside y hy).symm
    next hij => rw [if_neg hij] at hy; exact h.oneSide i x hx y hy
  running i x hx := by
    rw [setStore_store] at hx
    split at hx
    · exact hrun x hx
    · exact h.running i x hx
  nodup i := by
    rw [setStore_store]
    split
    · exact hnodup
    · exact h.nodup i
  oneStore i k x hi hk := by
    rw [setStore_store] at hi hk
    split at hi <;> split at hk
    next hij hkj => exact hij.trans hkj.symm
    next hij hkj => exact absurd hk (hone x hi k hkj)
    next hij hkj => exact absurd hi (hone x hk i hij)
    next hij hkj => exact h.oneStore i k x hi hk
  isolated i hi := by
    rw [setStore_store] at hi ⊢
    split at hi
    · exact absurd (hiso.symm.trans hi) nofun
    next hij => rw [if_neg hij]; exact h.isolated i hi

/-- R31: a RUNNING train on no store goes to the end of a list that takes its side. -/
theorem assignStore_listsSound {s : State} (h : ListsSound s) {x : TrainIx} (hoff : OffStores x s)
    (hx : (s.train x).state = .running) : ListsSound (assignStore x s) := by
  unfold assignStore; split
  · exact h
  next i hi =>
    obtain ⟨hopen, -⟩ := (chooseStore_iff s x.side i).mp hi
    obtain ⟨hiso, hside⟩ := h.side_of_takes ((takes_iff_openTo s x.side i).mpr hopen)
    refine h.setList (d := x.side) hiso ?_ ?_ ?_ ?_
    · exact List.Nodup.append (h.nodup i) (List.nodup_singleton x) (by simpa using hoff i)
    · simpa [or_imp, forall_and] using ⟨h.running i, hx⟩
    · simpa [or_imp, forall_and] using hside
    · intro y hy k hk hyk
      rcases List.mem_append.mp hy with hy | hy
      · exact hk (h.oneStore k i y hyk hy)
      · rw [List.mem_singleton.mp hy] at hyk
        exact hoff k hyk

/-- R34, R36: the trains of one side on a store go to the end of a list that takes that side. -/
theorem moveTrains_listsSound {s : State} (h : ListsSound s) {i j : StoreIx} {d : Side} (hne : j ≠ i)
    (hi : (s.store i).holds d = true) (hj : OpenTo s d j) : ListsSound (moveTrains i j s) := by
  obtain ⟨hiso, hside⟩ := h.side_of_takes ((takes_iff_openTo s d j).mpr hj)
  obtain ⟨y, hy, hyd⟩ := (Store.holds_iff _ d).mp hi
  have hempty : ListsSound (s.setStore i { s.store i with trains := [] }) := by
    refine .mono (s := s) (fun k => ?_) (fun k => ?_) (fun k x _ hx => hx) h
    · rw [setStore_store]; split
      · exact List.nil_sublist _
      · exact .refl _
    · rw [setStore_store]; split
      next hk => subst hk; exact .inl
      · exact .inl
  have hstore : ∀ k, (s.setStore i { s.store i with trains := [] }).store k =
      if k = i then { s.store i with trains := [] } else s.store k := fun k => setStore_store s i k _
  have hmem : ∀ x, x ∈ (s.store j).trains ++ (s.store i).trains → x ∈ (s.store j).trains ∨ x ∈ (s.store i).trains :=
    fun x => List.mem_append.mp
  unfold moveTrains; dsimp only
  rw [hstore j, if_neg hne]
  have hset := hempty.setList (j := j) (l := (s.store j).trains ++ (s.store i).trains) (d := d)
  rw [hstore j, if_neg hne] at hset
  refine hset hiso ?_ (fun x hx => ?_) (fun x hx => ?_) (fun x hx k hk hxk => ?_)
  · exact List.Nodup.append (h.nodup j) (h.nodup i) fun x hxj hxi => hne (h.oneStore j i x hxj hxi)
  · exact (hmem x hx).elim (h.running j x) (h.running i x)
  · exact (hmem x hx).elim (hside x) fun hx => (h.oneSide i x hx y hy).trans hyd
  · rw [hstore k] at hxk
    split at hxk
    · cases hxk
    next hki => exact (hmem x hx).elim (fun hx => hk (h.oneStore k j x hxk hx)) fun hx => hki (h.oneStore k i x hxk hx)

/-! ### The sequencer's requests, trips and seconds (R101 to R117) -/

section
variable (x : TrainIx)

/-- R105: the train that is loaded was READY, and so on no store. -/
theorem requestLoad_listsSound : Kept ListsSound (requestLoad x) := by
  intro s h
  unfold requestLoad; split
  next htaken =>
    have hx : (s.train x).state ≠ .running := fun hx => by simp [loadTaken, hx] at htaken
    refine raise_listsSound _ _ (assignStore_listsSound (h.putTrain_idle hx) (fun i => ?_) ?_)
    · rw [State.store, putTrain_heat]; exact h.offStores hx i
    · rw [putTrain_train, if_pos rfl]; rfl
  · exact h

theorem requestSetpoint_listsSound (kw : Nat) : Kept ListsSound (requestSetpoint x kw) := by
  intro s h
  unfold requestSetpoint; dsimp only
  split
  · exact h
  · exact h.setTrain_sameState rfl

theorem requestUnload_listsSound : Kept ListsSound (requestUnload x) := fun _ h =>
  kept_ite (f := fun s => raise .trainEvent (putTrain x _ (releaseStore x s)))
    (fun _ h => raise_listsSound _ _ h.putTrain_released) h

theorem requestStop_listsSound : Kept ListsSound (requestStop x) := fun _ h => kept_ite (enterStopping_listsSound x) h

theorem safeStop_listsSound : Kept ListsSound (safeStop x) := fun _ h => kept_ite (enterStopping_listsSound x) h

theorem excursionStop_listsSound : Kept ListsSound (excursionStop x) := fun s h =>
  kept_ite (stopFrom_listsSound x { s.train x with excursionStopped := true }) h

theorem eachTrain_listsSound {f : TrainIx → State → State} (hf : ∀ x, Kept ListsSound (f x)) (xs : List TrainIx) :
    Kept ListsSound (eachTrain f xs) := fun s => Kept.foldl _ hf xs s

theorem excursionChanged_listsSound (d : Side) (e : Excursion) : Kept ListsSound (excursionChanged d e) := by
  intro s h
  unfold excursionChanged; split
  · exact eachTrain_listsSound excursionStop_listsSound _ s h
  · exact h
  · exact eachTrain_listsSound (f := clearExcursionStopped) (fun _ _ hu => hu.setTrain_sameState rfl) _ s h

/-- R110: a train that trips leaves its store first. -/
theorem countTrip_listsSound : Kept ListsSound (countTrip x) := fun s h =>
  basisChange_listsSound _ (raise_listsSound _ _ ((releaseStore_listsSound x s h).putTrainCovered
    fun _ => .inr (releaseStore_offStores x s)))

theorem tripAssert_listsSound : Kept ListsSound (tripAssert x) := by
  intro s h
  have hline : ListsSound (s.setTrain x { s.train x with tripLine := true }) := h.setTrain_sameState rfl
  unfold tripAssert; dsimp only
  split
  · exact h
  · split
    · exact hline
    · exact hline
    all_goals exact countTrip_listsSound x _ hline

theorem countTimer_listsSound : Kept ListsSound (countTimer x) := by
  intro s h
  unfold countTimer; dsimp only
  split
  · exact h
  · split
    · exact expire_listsSound x s h
    · exact h.setTrain_sameState rfl

theorem trainSecond_listsSound : Kept ListsSound (trainSecond x) := fun s h =>
  (countTimer_listsSound x s h).putTrain_sameState rfl

/-- The heater cycles are no train's. -/
theorem withCycles_listsSound (a b : Cycle) :
    Kept ListsSound fun s => s.withTrains { s.trains with timerA := a, timerB := b } := fun s h =>
  .mono (s := s) (fun _ => .refl _) (fun _ hi => .inl hi) (fun _ _ _ hr => hr) h

theorem trainsSecond_listsSound : Kept ListsSound trainsSecond := fun s h =>
  withCycles_listsSound _ _ _ (eachTrain_listsSound trainSecond_listsSound TrainIx.all s h)

theorem trainsDay_listsSound (b : Turn) : Kept ListsSound (trainsDay b) := by
  intro s h
  refine kept_ite (f := trainsNewDay) (fun u hu => ?_) h
  refine .mono (s := u) (fun _ => .refl _) (fun _ hi => .inl hi) (fun i y _ hr => ?_) hu
  rw [trainsNewDay, State.train, State.withTrains_trains, PerTrain.get_map]
  exact hr

/-- R117: on entry into SAFE every train stops, and leaves its store. -/
theorem enteredSafe_listsSound : Kept ListsSound enteredSafe := fun s h =>
  listsSound_ignores (by decide) (by decide)
    ((releaseBoth_touches _ .safe).trans ((touches_withPort _ _).mono (by decide)))
    (eachTrain_listsSound safeStop_listsSound TrainIx.all s h)

end

/-! ### The dispatcher's second (R135) -/

section
variable (x : TrainIx)

/-- What touches the dispatch record alone. -/
theorem listsSound_choices {f : State → State} (hf : ∀ s, Touches [.dispatch] s (f s)) : Kept ListsSound f := fun s =>
  listsSound_ignores (by decide) (by decide) (hf s)

theorem stopOrUnload_listsSound : Kept ListsSound (stopOrUnload x) := by
  intro s h
  have hstop := requestStop_listsSound x s h
  have hunload := requestUnload_listsSound x _ hstop
  unfold stopOrUnload; dsimp only
  split
  · exact hstop
  · exact kept_ite (listsSound_choices fun u => setHold_touches u x true) hunload

theorem releaseTrain_listsSound : Kept ListsSound (releaseTrain x) := by
  intro s h
  unfold releaseTrain; dsimp only
  split
  · split
    · exact h
    · exact stopOrUnload_listsSound x s h
  · split
    · exact h
    · exact requestStop_listsSound x s h
  all_goals exact h

theorem startOrLoad_listsSound : Kept ListsSound (startOrLoad x) := by
  intro s h
  unfold startOrLoad; split
  · exact kept_ite (requestStart_listsSound x) h
  · exact kept_ite (requestLoad_listsSound x) h
  all_goals exact h

theorem lookAhead_listsSound : Kept ListsSound lookAhead := by
  intro s h
  have hahead : ListsSound ((rowsAhead s).foldl aheadOfRow (s, [])).1 :=
    List.foldlRecOn (motive := fun w : State × List TrainIx => ListsSound w.1) _ _ h fun w hw r _ =>
      eachTrain_listsSound (fun x _ hu => kept_ite (requestStart_listsSound x) hu) _ w.1 hw
  unfold lookAhead; split
  · exact listsSound_choices (fun u => touches_withDispatch u _) _ hahead
  · exact listsSound_choices (fun u => touches_withDispatch u _) s h

theorem rampTrain_listsSound : Kept ListsSound (rampTrain x) := fun _ h => kept_ite (requestSetpoint_listsSound x _) h

theorem dispatchTrains_listsSound : Kept ListsSound dispatchTrains := fun s h => by
  have hformed := listsSound_choices formCommit_touches s h
  have hreleased : ListsSound (releaseUnwanted (formCommit s)) := listsSound_choices clearHolds_touches _
    (eachTrain_listsSound releaseTrain_listsSound TrainIx.all _ hformed)
  have hloaded := eachTrain_listsSound startOrLoad_listsSound (releaseUnwanted (formCommit s)).dispatch.commit _ hreleased
  have hshared := listsSound_choices (fun u => computeShares_touches u (runningMembers (formCommit s))) _
    (lookAhead_listsSound _ hloaded)
  exact eachTrain_listsSound rampTrain_listsSound TrainIx.all _ hshared

theorem dispatchSecond_listsSound : Kept ListsSound dispatchSecond := fun s h => by
  rw [dispatchSecond_eq]
  exact listsSound_ignores (by decide) (by decide) (meterSecond_touches _)
    (dispatchTrains_listsSound _ (listsSound_choices formTarget_touches s h))

end

/-! ### The store block (R33 to R42) -/

/-- Heat that moves and figures that are formed leave the lists. -/
theorem ListsSound.of_lists {s t : State} (h : ListsSound s) (ht : t.trains = s.trains)
    (hl : ∀ i, (t.store i).trains = (s.store i).trains ∧ (t.store i).isolated = (s.store i).isolated) : ListsSound t :=
  .mono (fun i => by rw [(hl i).1]) (fun i hi => .inl ((hl i).2.symm.trans hi)) (fun i x _ hr => by rwa [State.train, ht]) h

theorem moveHeat_listsSound : Kept ListsSound moveHeat := fun s h =>
  h.of_lists rfl fun i => by rw [moveHeat, State.store, State.withHeat_heat, PerStore.get_ofFn]; exact ⟨rfl, rfl⟩

theorem storesLoss_listsSound : Kept ListsSound storesLoss := fun s h =>
  h.of_lists rfl fun i => by rw [storesLoss_store]; exact ⟨rfl, rfl⟩

theorem setSummary_listsSound (v : HeatSummary) : Kept ListsSound fun s => s.setSummary v := fun _ h =>
  h.of_lists rfl fun _ => ⟨rfl, rfl⟩

theorem recomputePools_listsSound : Kept ListsSound recomputePools := fun _ h => setSummary_listsSound _ _ h

theorem setContent_listsSound {s : State} (i : StoreIx) (kj : Nat) (h : ListsSound s) :
    ListsSound (s.setStore i { s.store i with contentKj := kj }) :=
  h.of_lists rfl fun k => by
    rw [setStore_store]
    split
    next hk => subst hk; exact ⟨rfl, rfl⟩
    · exact ⟨rfl, rfl⟩

theorem handleFull_listsSound (spill : PerStore Nat) (i : StoreIx) (sr : State × Nat) (h : ListsSound sr.1) :
    ListsSound (handleFull spill i sr).1 := by
  unfold handleFull; dsimp only
  split
  next hfull =>
    split
    · exact h
    next j hj =>
      obtain ⟨⟨hne, -, hopen⟩, -⟩ := (fullTarget_iff sr.1 i j).mp hj
      exact setContent_listsSound j _ (moveTrains_listsSound h hne (Bool.and_eq_true_iff.mp hfull).2 hopen)
  · exact h

theorem lowTarget_takes {s : State} {i j : StoreIx} (h : lowTarget s i = some j) : j ≠ i ∧ OpenTo s .discharge j := by
  rcases (lowTarget_iff s i j).mp h with ⟨-, ⟨hne, -, hopen⟩, -⟩ | ⟨-, -, ⟨hne, -, hopen⟩, -⟩ <;> exact ⟨hne, hopen⟩

theorem handleLow_listsSound (i : StoreIx) : Kept ListsSound (handleLow i) := by
  intro s h
  unfold handleLow; split
  next hholds =>
    split
    · exact h
    next j hj => exact moveTrains_listsSound h (lowTarget_takes hj).1 hholds (lowTarget_takes hj).2
  · exact h

theorem assignLate_listsSound (x : TrainIx) : Kept ListsSound (assignLate x) := by
  intro s h
  unfold assignLate; split
  next hx => exact assignStore_listsSound h ((trainStore_none_iff s x).mp hx.2) hx.1
  · exact h

theorem storesSecond_listsSound : Kept ListsSound storesSecond := fun s h => by
  have hfull : ListsSound (StoreIx.all.foldl (fun sr i => handleFull (PerStore.ofFn (overflowOf s)) i sr)
      (moveHeat s, 0)).1 :=
    List.foldlRecOn (motive := fun sr : State × Nat => ListsSound sr.1) _ _ (moveHeat_listsSound s h)
      fun sr h i _ => handleFull_listsSound _ i sr h
  have hlow := Kept.foldl (fun u i => handleLow i u) (fun i => handleLow_listsSound i) StoreIx.all _ hfull
  have hplaced : ListsSound (storesHandled s) := eachTrain_listsSound assignLate_listsSound TrainIx.all _ hlow
  obtain ⟨v, hv⟩ := storesSecond_eq s
  rw [hv]
  exact setSummary_listsSound v _ hplaced

/-- R69, R90: each response keeps the lists. -/
theorem respondDue_listsSound (d : Due) : Kept ListsSound (respondDue d) := by
  have hframe : .heat ∉ partFields d.part → .trains ∉ partFields d.part → Kept ListsSound (respondDue d) :=
    fun hh ht s => listsSound_ignores hh ht (respondDue_frame d s)
  cases d with
  | second p =>
    cases p with
    | storesSecond => exact storesSecond_listsSound
    | trainsSecond => exact trainsSecond_listsSound
    | dispatchSecond => exact dispatchSecond_listsSound
    | supervisionSecond =>
      exact supervisionSecond_kept (listsSound_ignores (by decide) (by decide)) enteredSafe_listsSound
    | storesLoss | trainsDay => exact fun s hs => hs
    | _ => exact hframe (by simp [Due.part, partFields]) (by simp [Due.part, partFields])
  | boundary b p =>
    cases p with
    | storesLoss => exact storesLoss_listsSound
    | trainsDay => exact trainsDay_listsSound b
    | storesSecond | trainsSecond | dispatchSecond | supervisionSecond => exact fun s hs => hs
    | _ => exact hframe (by simp [Due.part, partFields]) (by simp [Due.part, partFields])

end Sys2Proof.Machine
end

section
/-! SUPPORT. O56: the requests and the commands, and every step (R4, R24, R40 to R42, R112 to R114, R121 to R123). -/

namespace Sys2Proof.Machine

set_option Elab.async false

/-! ### Requests on the account (R4, R24) -/

theorem setExcursion_listsSound (d : Side) (e : Excursion) : Kept ListsSound (setExcursion d e) := by
  intro s h
  have haccount : ∀ a, ListsSound (s.withAccount a) := fun a =>
    listsSound_ignores (by decide) (by decide) (touches_withAccount s a) h
  unfold setExcursion; dsimp only
  split
  · exact haccount _
  · exact excursionChanged_listsSound d e _ (haccount _)

theorem ownPostReading_listsSound (r : ReadingArgs) : Kept ListsSound (ownPostReading r) := fun s h => by
  have htaken : ListsSound (readingTaken r s) :=
    listsSound_ignores (by decide) (by decide) (readingTaken_touches r s) h
  have hjudged : ListsSound (readingJudged r s) :=
    setExcursion_listsSound .discharge _ _ (setExcursion_listsSound .charge _ _ htaken)
  exact listsSound_ignores (by decide) (by decide) (ownPostReading_frame r s) hjudged

theorem clearSide_listsSound (d : Side) : Kept ListsSound (clearSide d) := fun _ h =>
  kept_ite (setExcursion_listsSound d .clear) h

theorem answer_listsSound (c : Byte) (r : Result) (p : List Byte) : Kept ListsSound (answer c r p) := fun s =>
  listsSound_ignores (by decide) (by decide) (answer_touches s c r p)

theorem ownExcursionClear_listsSound (b : Byte) : Kept ListsSound (ownExcursionClear b) := by
  intro s h
  unfold ownExcursionClear; split
  · exact answer_listsSound _ _ _ s h
  · split
    · exact answer_listsSound _ _ _ s h
    · split
      · exact answer_listsSound _ _ _ s h
      · exact answer_listsSound _ _ _ _ (kept_ite (clearSide_listsSound .discharge)
          (kept_ite (clearSide_listsSound .charge) h))

/-! ### Requests on stores (R40 to R42) -/

/-- R40: a store is isolated only while no train is on it. -/
theorem serviceStore_listsSound {s : State} (h : ListsSound s) {i : StoreIx} {out : Bool}
    (hi : out = true → (s.store i).trains = []) : ListsSound (serviceStore i out s) := by
  refine basisChange_listsSound _ (recomputePools_listsSound _ ?_)
  have hstore : ∀ k, (s.setStore i { s.store i with isolated := out }).store k =
      if k = i then { s.store i with isolated := out } else s.store k := fun k => setStore_store s i k _
  refine .mono (s := s) (fun k => ?_) (fun k hk => ?_) (fun k x _ hx => hx) h
  · rw [hstore]; split
    next hk => rw [hk]
    · exact .refl _
  · rw [hstore] at hk
    split at hk
    next hki => rw [hki]; exact .inr (hi hk)
    · exact .inl hk

theorem ownStoreService_listsSound (index direction : Byte) : Kept ListsSound (ownStoreService index direction) := by
  intro s h
  cases hi : storeOf index with
  | none => simp only [ownStoreService, hi]; exact answer_listsSound _ _ _ s h
  | some i =>
    cases hd : returnOf direction with
    | none => simp only [ownStoreService, hi, hd]; exact answer_listsSound _ _ _ s h
    | some back =>
      by_cases hstate : (s.store i).state = if back then .isolated else .available
      · rw [ownStoreService_taken hi hd hstate]
        refine answer_listsSound _ _ _ _ (serviceStore_listsSound h fun hout => ?_)
        have hback : back = false := by simpa using hout
        rw [hback] at hstate
        exact ((Store.state_available_iff _).mp (by simpa using hstate)).2
      · rw [ownStoreService_wrongState hi hd hstate]
        exact answer_listsSound _ _ _ s h

theorem ownStoreSet_listsSound (index : Byte) (mj : Word) : Kept ListsSound (ownStoreSet index mj) := by
  intro s h
  unfold ownStoreSet; split
  · exact answer_listsSound _ _ _ s h
  · split
    · exact answer_listsSound _ _ _ s h
    · split
      · exact answer_listsSound _ _ _ s h
      · exact answer_listsSound _ _ _ _ (recomputePools_listsSound _ (setContent_listsSound _ _ h))

theorem writeParam_listsSound (p : Param) (v : Nat) : Kept ListsSound (writeParam p v) := by
  intro s h
  have hlimits : ListsSound (s.withLimits (s.limits.set p v)) :=
    listsSound_ignores (by decide) (by decide) (touches_withLimits s _) h
  cases p with
  | capHs i => exact recomputePools_listsSound _ (setContent_listsSound _ _ hlimits)
  | _ => exact hlimits

theorem ownParamWrite_listsSound (index : Byte) (v : Word) : Kept ListsSound (ownParamWrite index v) := by
  intro s h
  unfold ownParamWrite; split
  · exact answer_listsSound _ _ _ s h
  · split
    · exact answer_listsSound _ _ _ s h
    · split
      · exact answer_listsSound _ _ _ _ (writeParam_listsSound _ _ s h)
      · exact answer_listsSound _ _ _ s h

/-! ### Requests on trains (R112 to R114, R121 to R123) -/

/-- A record of a train that is not RUNNING, written in an event with a basis change of its own and answered. -/
theorem answerCovered_listsSound {s : State} (h : ListsSound s) {x : TrainIx} (hx : (s.train x).state ≠ .running)
    {v : Train} (c : Byte) (r : Result) (p : List Byte) :
    ListsSound (answer c r p (basisChange (raise .trainEvent (putTrainCovered x v s)))) :=
  answer_listsSound _ _ _ _ (basisChange_listsSound _ (raise_listsSound _ _ (h.putTrainCovered fun hr => absurd hr hx)))

theorem ownTrainReset_listsSound (index : Byte) : Kept ListsSound (ownTrainReset index) := by
  intro s h
  unfold ownTrainReset; split
  · exact answer_listsSound _ _ _ s h
  · split
    · exact answer_listsSound _ _ _ s h
    next hstate =>
      rw [not_or, not_not] at hstate
      exact answerCovered_listsSound h (by rw [hstate.1]; decide) _ _ _

theorem ownTrainUnlock_listsSound (index : Byte) : Kept ListsSound (ownTrainUnlock index) := by
  intro s h
  unfold ownTrainUnlock; split
  · exact answer_listsSound _ _ _ s h
  · split
    · exact answer_listsSound _ _ _ s h
    next hstate =>
      rw [not_or, not_not] at hstate
      exact answerCovered_listsSound h (by rw [hstate.1]; decide) _ _ _

theorem ownTrainService_listsSound (index direction : Byte) : Kept ListsSound (ownTrainService index direction) := by
  intro s h
  unfold ownTrainService; split
  · split
    next hstate =>
      refine answer_listsSound _ _ _ _ (basisChange_listsSound _ (h.putTrainCovered fun hr => ?_))
      rw [hr] at hstate
      cases hstate
    · exact answer_listsSound _ _ _ s h
  · split
    · exact answer_listsSound _ _ _ s h
    next hstate =>
      rw [not_or, not_not] at hstate
      exact answerCovered_listsSound h (by rw [hstate.1]; decide) _ _ _
  · exact answer_listsSound _ _ _ s h

theorem ownTrainPriority_listsSound (side : Byte) (order : List Byte) : Kept ListsSound (ownTrainPriority side order) := by
  intro s h
  unfold ownTrainPriority; split
  · exact answer_listsSound _ _ _ s h
  next d ts _ =>
    exact answer_listsSound _ _ _ _ (eachTrain_listsSound
      (f := fun x u => u.setTrain x { u.train x with rank := ts.idxOf x + 1 })
      (fun _ _ hu => hu.setTrain_sameState rfl) ts s h)

theorem ownHeaterAssign_listsSound (index heater : Byte) : Kept ListsSound (ownHeaterAssign index heater) := by
  intro s h
  have hassign : ∀ x v, ListsSound (assignHeater x v s) := fun x v => by
    unfold assignHeater; split
    · exact h
    · exact h.putTrain_sameState rfl
  unfold ownHeaterAssign; split
  · split
    · exact answer_listsSound _ _ _ _ (hassign _ _)
    · exact answer_listsSound _ _ _ s h
  · exact answer_listsSound _ _ _ s h

theorem setCycle_listsSound (k : CycleTimer) (c : Cycle) : Kept ListsSound fun s => s.setCycle k c := fun s h => by
  cases k <;> exact withCycles_listsSound _ _ s h

theorem ownHeaterTimer_listsSound (timer : Byte) (period onTime : Half) :
    Kept ListsSound (ownHeaterTimer timer period onTime) := by
  intro s h
  unfold ownHeaterTimer; split
  · exact answer_listsSound _ _ _ s h
  · split
    · exact answer_listsSound _ _ _ _ (setCycle_listsSound _ _ s h)
    · exact answer_listsSound _ _ _ s h

/-! ### Every step -/

/-- The last count of a state that is not RUNNING. -/
theorem expiry_listsSound {f : TrainIx → State → State} {x : TrainIx} {st : TrainState} (hst : st ≠ .running)
    (hf : ∀ u, ListsSound u → (u.train x).state ≠ .running → ListsSound (f x u)) :
    Kept ListsSound fun u => if (u.train x).state = st ∧ (u.train x).stateTimer = 1 then f x u else u := by
  intro s h
  dsimp only
  split
  next hx => exact hf s h (by rw [hx.1]; exact hst)
  · exact h

/-- Each command keeps the lists. -/
theorem exec_listsSound (c : Instr) (s t : State) (h : exec c s = .next t) (hs : ListsSound s) : ListsSound t := by
  have hport : Ignores ListsSound readerFields := listsSound_ignores (by decide) (by decide)
  have hevents : Ignores ListsSound [.clock, .due, .port] := listsSound_ignores (by decide) (by decide)
  have hmode : ∀ c : Instr, c.rulesMode = true → exec c s = .next t → ListsSound t := fun c hc h =>
    exec_rulesMode_kept (listsSound_ignores (by decide) (by decide)) enteredSafe_listsSound hc h hs
  have hevent : ∀ f, Kept ListsSound f → exec c s = .next (unlessHeld f s) → ListsSound t := fun f hf hc => by
    obtain rfl := Host.Outcome.next.inj (h.symm.trans hc)
    exact unlessHeld_kept hf s hs
  have hrequest : ∀ r hd f, Kept ListsSound f → exec c s = .next (takeRequest r hd f s) → ListsSound t :=
    fun r hd f hf hc => by
      obtain rfl := Host.Outcome.next.inj (h.symm.trans hc)
      exact takeRequest_kept hport hf r hd s hs
  cases c with
  | powerOnReset lines =>
    obtain rfl := Host.Outcome.next.inj h
    refine .mono (s := State.afterReset lines.trip) (fun _ => .refl _) (fun _ hi => .inl hi) (fun _ _ _ hr => hr) ?_
    exact (listsSound_iff _).mpr ⟨afterReset_storeSeparation lines.trip, afterReset_storeListLaw lines.trip⟩
  | secondEvent how => exact exec_events_kept hevents respondDue_listsSound (.inl rfl) h hs
  | boundary how => exact exec_events_kept hevents respondDue_listsSound (.inr (.inl rfl)) h hs
  | syncPulse how => exact exec_events_kept hevents respondDue_listsSound (.inr (.inr rfl)) h hs
  | startingExpiry x => exact hevent _ (expiry_listsSound (by decide) fun _ => enterReady_listsSound x) rfl
  | readyMaxExpiry x =>
    exact hevent _ (expiry_listsSound (by decide) fun u hu _ => enterStopping_listsSound x u hu) rfl
  | stopTimeExpiry x => exact hevent _ (expiry_listsSound (by decide) fun _ => enterCooldown_listsSound x) rfl
  | minDownExpiry x => exact hevent _ (expiry_listsSound (by decide) fun _ => enterIdle_listsSound x) rfl
  | hotWindowExpiry x =>
    refine hevent _ (fun u hu => ?_) rfl
    split
    · exact hu.putTrain_sameState rfl
    · exact hu
  | heaterCycleWrap k => exact hevent _ (fun u hu => kept_ite (setCycle_listsSound k _) hu) rfl
  | tripAssertion x => exact hevent _ (tripAssert_listsSound x) rfl
  | tripRelease x =>
    refine hevent _ (fun u hu => ?_) rfl
    exact hu.setTrain_sameState rfl
  | supervisionExpiry | lockLimits _ | keepalive _ | forceExpiry _ | resume _ | recover _ | enterHold _ | enterSafe _ =>
    exact hmode _ rfl h
  | postReading hd r => exact hrequest _ _ _ (ownPostReading_listsSound r) rfl
  | excursionClear hd b => exact hrequest _ _ _ (ownExcursionClear_listsSound b) rfl
  | storeService hd i d => exact hrequest _ _ _ (ownStoreService_listsSound i d) rfl
  | storeSet hd i v => exact hrequest _ _ _ (ownStoreSet_listsSound i v) rfl
  | trainService hd i d => exact hrequest _ _ _ (ownTrainService_listsSound i d) rfl
  | trainReset hd i => exact hrequest _ _ _ (ownTrainReset_listsSound i) rfl
  | trainUnlock hd i => exact hrequest _ _ _ (ownTrainUnlock_listsSound i) rfl
  | trainPriority hd d l => exact hrequest _ _ _ (ownTrainPriority_listsSound d l) rfl
  | heaterAssign hd i v => exact hrequest _ _ _ (ownHeaterAssign_listsSound i v) rfl
  | heaterTimer hd k p o => exact hrequest _ _ _ (ownHeaterTimer_listsSound k p o) rfl
  | paramWrite hd i v => exact hrequest _ _ _ (ownParamWrite_listsSound i v) rfl
  | clockSet hd n d c =>
    exact hrequest _ _ _ (ownClockSet_kept hevents respondDue_listsSound
      (fun n d c u => listsSound_ignores (by decide) (by decide) (setClock_frame u n d c)) n d c) rfl
  | _ => exact exec_kept_of_frame (listsSound_ignores (by simp [Instr.fields]) (by simp [Instr.fields])) h hs

/-- R30 to R36, R40: every step keeps the lists. -/
theorem step_listsSound {s t : State} (h : step s = .next t) (hs : ListsSound s) : ListsSound t :=
  step_kept (listsSound_ignores (by decide) (by decide))
    (respondNext_kept (listsSound_ignores (by decide) (by decide)) respondDue_listsSound) exec_listsSound h hs

end Sys2Proof.Machine
end

section
open Sys2Proof Sys2Proof.Machine

set_option Elab.async false

/-- Settles O56, by the law of the lists, train by train, that every command and every response keeps. -/
theorem stepKeepsStoreLists : Obligations.StepKeepsStoreLists := fun s t hside hlist h =>
  (listsSound_iff t).mp (step_listsSound h ((listsSound_iff s).mpr ⟨hside, hlist⟩))

end

section
/-! SUPPORT. O7: the store block's response to a second (R33 to R38), step by step. -/

namespace Sys2Proof.Machine

set_option Elab.async false

/-! ### One step after another -/

/-- A fold of steps goes through the steps. -/
theorem through_foldl {α β : Type} {R : α → β → β → Prop} {f : β → α → β} (hf : ∀ b a, R a b (f b a)) :
    ∀ (l : List α) (b : β), Through R l b (l.foldl f b)
  | [], _ => rfl
  | a :: l, b => ⟨f b a, hf b a, through_foldl hf l (f b a)⟩

/-! ### The heat of a second (R33, R35) -/

section
variable (s : State)

theorem moveHeat_store (i : StoreIx) :
    (moveHeat s).store i = { s.store i with contentKj := heatedContent s i } := by
  rw [moveHeat, State.store, State.withHeat_heat, PerStore.get_ofFn]

/-- R33: a draw is rounded up to a whole kJ. -/
theorem draw_eq (x : TrainIx) : draw s x = (meteredPower s x * s.limits.hE + 999) / 1000 := by
  rw [draw, ceilDiv, Nat.add_sub_assoc (by decide)]

/-- R35: the RUNNING compressors whose heat no store takes. -/
theorem unassigned_eq : (Side.charge.trains.filter fun x =>
      decide ((s.train x).state = .running) && (trainStore s x).isNone) =
    (Side.charge.trains.filter fun x => decide ((s.train x).state = .running)).filter fun x =>
      !StoreIx.all.any fun i => (s.store i).trains.contains x := by
  rw [List.filter_filter]
  refine List.filter_congr fun x _ => ?_
  rw [Bool.and_comm]
  refine congrArg (· && _) (Bool.eq_iff_iff.mpr ?_)
  simp [trainStore]

end

/-! ### Full stores (R34) -/

section
variable {s u : State} {i j : StoreIx}

theorem moveTrains_movesList (hne : j ≠ i) : MovesList i j 0 s (moveTrains i j s) := by
  refine ⟨?_, ?_, fun k hki hkj => ?_, rfl, moveTrains_touches s i j⟩
  · rw [moveTrains_store hne, if_pos rfl]
  · rw [moveTrains_store hne, if_neg hne, if_pos rfl]; rfl
  · rw [moveTrains_store hne, if_neg hki, if_neg hkj]

/-- Heat that comes with a list. -/
theorem MovesList.add (h : MovesList i j 0 s u) (hne : j ≠ i) (kj : Nat) :
    MovesList i j kj s (u.setStore j { u.store j with contentKj := (u.store j).contentKj + kj }) := by
  obtain ⟨hi, hj, hk, hsummary, htouches⟩ := h
  refine ⟨?_, ?_, fun k hki hkj => ?_, hsummary, htouches.trans (setStore_touches u j _)⟩
  · rw [setStore_store, if_neg hne.symm, hi]
  · rw [setStore_store, if_pos rfl, hj]; rfl
  · rw [setStore_store, if_neg hkj, hk k hki hkj]

theorem fullStore_iff : (isFull s i && (s.store i).holds .charge) = true ↔
    capacityKj s i ≤ (s.store i).contentKj ∧ ∃ x ∈ (s.store i).trains, x.side = .charge := by
  rw [Bool.and_eq_true, Store.holds_iff, isFull, decide_eq_true_eq]

end

section
variable (spill : PerStore Nat) (i : StoreIx) (sr : State × Nat)

theorem handleFull_not (h : (isFull sr.1 i && (sr.1.store i).holds .charge) = false) : handleFull spill i sr = sr :=
  if_neg (by simp [h])

section
variable (h : (isFull sr.1 i && (sr.1.store i).holds .charge) = true)
include h

theorem handleFull_rejected (hn : fullTarget sr.1 i = none) : handleFull spill i sr = (sr.1, sr.2 + spill.get i) := by
  unfold handleFull; dsimp only
  rw [if_pos h, hn]

theorem handleFull_moved {j : StoreIx} (hj : fullTarget sr.1 i = some j) : handleFull spill i sr =
    (let taken := min (roomKj sr.1 j) (spill.get i)
     let u := moveTrains i j sr.1
     (u.setStore j { u.store j with contentKj := (u.store j).contentKj + taken }, sr.2 + (spill.get i - taken))) := by
  unfold handleFull; dsimp only
  rw [if_pos h, hj]

end

end

/-- R34: each store in its turn. -/
theorem handleFull_fullHandled (overflow : StoreIx → Nat) (i : StoreIx) (sr : State × Nat) :
    FullHandled overflow i sr (handleFull (PerStore.ofFn overflow) i sr) := by
  refine ⟨fun hn => ?_, fun hh hno => ?_, fun j hh hj => ?_⟩
  · exact handleFull_not _ i sr (by simpa using mt fullStore_iff.mp hn)
  · rw [handleFull_rejected _ i sr (fullStore_iff.mpr hh), PerStore.get_ofFn]
    exact Option.eq_none_iff_forall_ne_some.mpr fun j hj => hno j ((fullTarget_iff sr.1 i j).mp hj)
  · rw [handleFull_moved _ i sr (fullStore_iff.mpr hh) ((fullTarget_iff sr.1 i j).mpr hj), PerStore.get_ofFn]
    exact ⟨(moveTrains_movesList hj.1.1).add hj.1.1 _, rfl⟩

/-! ### Low stores (R36) and late placing (R38 step 4) -/

theorem handleLow_lowHandled (i : StoreIx) (s : State) : LowHandled i s (handleLow i s) := by
  refine ⟨fun j hholds hj => ?_, fun hn => ?_⟩
  · have htarget := (lowTarget_iff s i j).mpr hj
    rw [handleLow, if_pos ((Store.holds_iff _ _).mpr hholds), htarget]
    exact moveTrains_movesList (lowTarget_takes htarget).1
  · rcases hn with hn | hn
    · exact if_neg fun h => hn ((Store.holds_iff _ _).mp h)
    · have hnone : lowTarget s i = none :=
        Option.eq_none_iff_forall_ne_some.mpr fun j hj => hn j ((lowTarget_iff s i j).mp hj)
      rw [handleLow, hnone]
      split <;> rfl

theorem assignStore_placed (x : TrainIx) (s : State) : Placed x s (assignStore x s) := by
  refine ⟨fun hn => ?_, fun i hi => ?_⟩
  · have hnone : chooseStore s x.side = none :=
      Option.eq_none_iff_forall_ne_some.mpr fun i hi => hn i ((chooseStore_iff s x.side i).mp hi).1
    rw [assignStore, hnone]
  · rw [assignStore, (chooseStore_iff s x.side i).mpr hi]

theorem assignLate_placedLate (x : TrainIx) (s : State) : PlacedLate x s (assignLate x s) := by
  have hoff : trainStore s x = none ↔ ∀ i, x ∉ (s.store i).trains := trainStore_none_iff s x
  refine ⟨fun h => ?_, fun h => if_neg fun hx => h ⟨hx.1, hoff.mp hx.2⟩⟩
  rw [assignLate, if_pos ⟨h.1, hoff.mpr h.2⟩]
  exact assignStore_placed x s

/-! ### The response in its steps (R38) -/

section
variable (s : State)

/-- R38 step 2: the state after the full stores are handled, and the heat rejected there. -/
def fullStoresHandled : State × Nat :=
  StoreIx.all.foldl (fun sr i => handleFull (PerStore.ofFn (overflowOf s)) i sr) (moveHeat s, 0)

/-- R38 step 3: the state after the stores that hold expanders are handled. -/
def lowStoresHandled : State := StoreIx.all.foldl (fun u i => handleLow i u) (fullStoresHandled s).1

theorem fullStoresHandled_through :
    Through (FullHandled (overflowOf s)) StoreIx.all (moveHeat s, 0) (fullStoresHandled s) :=
  through_foldl (fun sr i => handleFull_fullHandled (overflowOf s) i sr) _ _

theorem lowStoresHandled_through : Through LowHandled StoreIx.all (fullStoresHandled s).1 (lowStoresHandled s) :=
  through_foldl (fun u i => handleLow_lowHandled i u) _ _

theorem storesHandled_through : Through PlacedLate TrainIx.all (lowStoresHandled s) (storesHandled s) :=
  through_foldl (fun u x => assignLate_placedLate x u) _ _

theorem storesHandled_eq : storesHandled s = eachTrain assignLate TrainIx.all (lowStoresHandled s) := rfl

theorem storesHandled_touches : Touches [.heat] s (storesHandled s) := by
  have hfull : Touches [.heat] s (fullStoresHandled s).1 :=
    List.foldlRecOn (motive := fun sr : State × Nat => Touches [.heat] s sr.1) _ _ (moveHeat_touches s)
      fun sr h i _ => h.trans (handleFull_touches _ i sr)
  have hlow : Touches [.heat] s (lowStoresHandled s) :=
    hfull.trans (Touches.foldl _ (fun u i => handleLow_touches u i) StoreIx.all _)
  exact hlow.trans (eachTrain_touches _ assignLate (fun x u => assignLate_touches u x) TrainIx.all)

/-- R37: S, for the trains and limits of s. -/
theorem runningExpanderMax_of_touches {s t : State} (h : Touches [.heat] s t) :
    runningExpanderMax t = runningExpanderMax s := by
  have htrain : ∀ x, t.train x = s.train x := fun x => congrArg (fun v : Trains => v.train.get x) (h.get .trains)
  have htp : tpMax t = tpMax s := funext fun x => congrArg (fun l : Limits => (l.train.get x).tpMax) (h.get .limits)
  simp only [runningExpanderMax, htrain, htp]

/-- R38 steps 5 to 7: the pooled figures, the reject mark and the taper. -/
def summarize (reject : Bool) (u : State) : State :=
  computeTaper ((recomputePools u).setSummary { (recomputePools u).heat.summary with reject := reject })

theorem storesSecond_summarize : storesSecond s =
    summarize (decide (0 < (fullStoresHandled s).2 + unassignedDeliveries s)) (storesHandled s) := by
  unfold storesSecond summarize storesHandled fullStoresHandled
  dsimp only

theorem summarize_summary (reject : Bool) (u : State) : (summarize reject u).heat.summary =
    (let pooled := pooledContent u
     let top := runningExpanderMax u
     let cap := if u.limits.lowMark = 0 then top else min top (top * pooled / u.limits.lowMark)
     { pooledContent := pooled, pooledCapacity := pooledCapacity u, reject := reject, taper := decide (cap < top)
       taperCap := cap }) := rfl

theorem summarize_store (reject : Bool) (u : State) (i : StoreIx) : (summarize reject u).store i = u.store i := rfl

end

/-! ### The response reads nothing of what is due (log 24) -/

theorem eachTrain_blind {f : TrainIx → State → State} (hf : ∀ x, Blind (f x)) :
    ∀ xs : List TrainIx, Blind (eachTrain f xs)
  | [] => Blind.id
  | x :: xs => (hf x).comp (eachTrain_blind hf xs)

theorem assignStore_blind (x : TrainIx) : Blind (assignStore x) := by
  intro s ds
  have hchosen : chooseStore (s.withDue ds) x.side = chooseStore s x.side := by
    rw [chooseStore, storeFigure_eq, chooseStore, storeFigure_eq]; rfl
  unfold assignStore
  rw [hchosen]
  cases chooseStore s x.side <;> rfl

theorem assignLate_blind (x : TrainIx) : Blind (assignLate x) :=
  Blind.ite (fun _ _ => Iff.rfl) (assignStore_blind x) .id

theorem handleLow_blind (i : StoreIx) : Blind (handleLow i) := by
  intro s ds
  have htarget : lowTarget (s.withDue ds) i = lowTarget s i := by unfold lowTarget drawTarget; rfl
  by_cases h : (s.store i).holds .discharge = true
  · rw [handleLow, handleLow, if_pos h, htarget]
    refine (if_pos h).trans ?_
    cases lowTarget s i <;> rfl
  · exact (if_neg h).trans (congrArg (State.withDue · ds) (if_neg h).symm)

theorem handleFull_withDue (spill : PerStore Nat) (i : StoreIx) (s : State) (r : Nat) (ds : List Due) :
    handleFull spill i (s.withDue ds, r) = ((handleFull spill i (s, r)).1.withDue ds, (handleFull spill i (s, r)).2) := by
  by_cases h : (isFull s i && (s.store i).holds .charge) = true
  · cases hj : fullTarget s i with
    | none =>
      rw [handleFull_rejected spill i (s, r) h hj]
      exact handleFull_rejected spill i (s.withDue ds, r) h hj
    | some j =>
      rw [handleFull_moved spill i (s, r) h hj]
      exact handleFull_moved spill i (s.withDue ds, r) h hj
  · have h := Bool.eq_false_iff.mpr h
    rw [handleFull_not spill i (s, r) h]
    exact handleFull_not spill i (s.withDue ds, r) h

theorem fullStoresHandled_withDue (s : State) (ds : List Due) :
    fullStoresHandled (s.withDue ds) = ((fullStoresHandled s).1.withDue ds, (fullStoresHandled s).2) := by
  have hfold : ∀ (spill : PerStore Nat) (l : List StoreIx) (u : State) (r : Nat),
      l.foldl (fun sr i => handleFull spill i sr) (u.withDue ds, r) =
        ((l.foldl (fun sr i => handleFull spill i sr) (u, r)).1.withDue ds,
          (l.foldl (fun sr i => handleFull spill i sr) (u, r)).2) := fun spill l => by
    induction l with
    | nil => exact fun _ _ => rfl
    | cons i l ih =>
      intro u r
      rw [List.foldl_cons, handleFull_withDue]
      exact ih _ _
  have hspill : overflowOf (s.withDue ds) = overflowOf s := rfl
  have hmoved : moveHeat (s.withDue ds) = (moveHeat s).withDue ds := rfl
  rw [fullStoresHandled, hspill, hmoved, hfold, fullStoresHandled]

theorem lowStoresHandled_blind : Blind lowStoresHandled := fun s ds => by
  have hfold : ∀ l : List StoreIx, Blind fun u => l.foldl (fun u i => handleLow i u) u := fun l => by
    induction l with
    | nil => exact Blind.id
    | cons i l ih => exact (handleLow_blind i).comp ih
  rw [lowStoresHandled, fullStoresHandled_withDue]
  exact hfold _ _ ds

theorem storesHandled_blind : Blind storesHandled := fun s ds => by
  rw [storesHandled_eq, lowStoresHandled_blind, storesHandled_eq]
  exact eachTrain_blind assignLate_blind _ _ ds

theorem summarize_blind (reject : Bool) : Blind (summarize reject) := fun _ _ => rfl

theorem storesSecond_blind : Blind storesSecond := fun s ds => by
  have hlost : unassignedDeliveries (s.withDue ds) = unassignedDeliveries s := rfl
  rw [storesSecond_summarize, fullStoresHandled_withDue, storesHandled_blind s ds, hlost, summarize_blind,
    storesSecond_summarize]

/-- With every other response put off, a second is the clock's and the stores'. -/
theorem storesSecond_alone {s : State} (hd : s.due = []) : ∃ t, secondNow ⟨[], othersThan .storesSecond⟩ s = t
    ∧ t.heat = (storesSecond s).heat ∧ Touches [.heat, .clock, .due] s t := by
  obtain ⟨d, e, halone⟩ := secondNow_alone (p := .storesSecond) rfl (by decide) hd
  change secondNow _ _ = (clockSecond (storesSecond (s.withDue d))).withDue e at halone
  rw [storesSecond_blind] at halone
  have hstores := storesSecond_touches s
  generalize storesSecond s = u at *
  have hclock : Touches [.clock, .due] u ((clockSecond (u.withDue d)).withDue e) :=
    Touches.comp (Touches.comp (gs := [.clock, .due]) (touches_withDue u d) (clockSecond_touches _)) (touches_withDue _ e)
  exact ⟨_, halone, hclock.get .heat, hstores.comp hclock⟩

end Sys2Proof.Machine
end

section
open Sys2Proof Sys2Proof.Machine

set_option Elab.async false

/-- Settles O7: the heat moved, then the full stores, the low stores and the trains on no store one after another, and the summary. -/
theorem storesRespondToSecond : Obligations.StoresRespondToSecond := by
  intro s hs hd kw delivers draws on gain cap running nowhere
  obtain ⟨t, ht, hheat, htouches⟩ := storesSecond_alone hd
  have hstore : ∀ i, t.store i = (storesHandled s).store i := fun i => by
    have hi : t.store i = (storesSecond s).store i := congrArg (fun v : Heat => v.store.get i) hheat
    rw [hi, storesSecond_summarize, summarize_store]
  have hexec : exec (.secondEvent ⟨[], othersThan .storesSecond⟩) s = .next t :=
    congrArg Host.Outcome.next ((unlessHeld_taken s _ hs).trans ht)
  have hmoved : ∀ i, (moveHeat s).store i =
      { s.store i with contentKj := min (cap i) (gain i) - sumOver draws (on .discharge i) } := fun i => by
    rw [moveHeat_store, heatedContent, drawsFrom, show draw s = draws from funext (draw_eq s)]
    rfl
  have hsummary : t.heat.summary = (storesSecond s).heat.summary := congrArg Heat.summary hheat
  rw [storesSecond_summarize, summarize_summary, runningExpanderMax_of_touches (storesHandled_touches s),
    (storesHandled_touches s).get .limits] at hsummary
  have hfull := fullStoresHandled_through s
  have hlow := lowStoresHandled_through s
  have hplaced := storesHandled_through s
  rw [show overflowOf s = fun i => gain i - cap i from rfl] at hfull
  generalize fullStoresHandled s = full at *
  refine ⟨t, moveHeat s, full.1, lowStoresHandled s, storesHandled s, full.2,
    hexec, hmoved, rfl, moveHeat_touches s, hfull, hlow, hplaced, hstore, ?_, htouches⟩
  intro live pooled top taper
  have hpooled : pooledContent (storesHandled s) = pooled := by simp only [pooledContent, ← hstore]; rfl
  have hcapacity : pooledCapacity (storesHandled s) = (live.map fun i => s.limits.capHs.get i).sum := by
    have hlimits : (storesHandled s).limits = s.limits := (storesHandled_touches s).get .limits
    simp only [pooledCapacity, capacityMj, ← hstore, hlimits]; rfl
  have hlost : unassignedDeliveries s = sumOver delivers nowhere := by rw [unassignedDeliveries, unassigned_eq]; rfl
  rw [hsummary, hpooled, hcapacity, hlost]
  rfl

end

section
/-! SUPPORT. O22: where the heat of a second goes (R33 to R35). What a full store cannot hold is taken by another or rejected, a move of
trains moves no heat, and no response but the stores' own moves any. -/

namespace Sys2Proof.Machine

set_option Elab.async false

/-! ### The heat of the three stores -/

/-- The heat in the three stores together, in kJ. -/
def totalHeat (s : State) : Nat := (StoreIx.all.map fun i => (s.store i).contentKj).sum

theorem sum_stores (f : StoreIx → Nat) : (StoreIx.all.map f).sum = f .hs0 + f .hs1 + f .hs2 := by
  simp [StoreIx.all, Nat.add_assoc]

theorem totalHeat_of_content {s t : State} (h : ∀ i, (t.store i).contentKj = (s.store i).contentKj) :
    totalHeat t = totalHeat s := by simp only [totalHeat, h]

/-- Heat put into one store is in the three together. -/
theorem totalHeat_add (s : State) (j : StoreIx) (kj : Nat) :
    totalHeat (s.setStore j { s.store j with contentKj := (s.store j).contentKj + kj }) = totalHeat s + kj := by
  simp only [totalHeat, sum_stores, setStore_store]
  cases j <;> simp <;> omega

/-! ### Full stores (R34) -/

section
variable {s : State} {spill : PerStore Nat} {i k : StoreIx}

/-- R34: a store that is full and holds compressors. -/
def Brimming (k : StoreIx) (s : State) : Prop := (isFull s k && (s.store k).holds .charge) = true

theorem Brimming.of_store {t : State} (hl : t.limits = s.limits) (h : t.store k = s.store k) (hk : Brimming k s) :
    Brimming k t := by
  unfold Brimming isFull capacityKj capacityMj at *
  rwa [hl, h]

/-- R34: what a store that is handled could not hold is in another store or counted as rejected. -/
theorem handleFull_total (r : Nat) (h : 0 < spill.get i → Brimming i s) :
    totalHeat (handleFull spill i (s, r)).1 + (handleFull spill i (s, r)).2 = totalHeat s + r + spill.get i := by
  by_cases hb : Brimming i s
  · cases hj : fullTarget s i with
    | none =>
      rw [handleFull_rejected spill i (s, r) hb hj]
      exact (Nat.add_assoc ..).symm
    | some j =>
      have htaken : min (roomKj s j) (spill.get i) ≤ spill.get i := min_le_right _ _
      rw [handleFull_moved spill i (s, r) hb hj]
      dsimp only
      rw [totalHeat_add, totalHeat_of_content (moveTrains_content i j s)]
      omega
  · have hzero : spill.get i = 0 := Nat.eq_zero_of_not_pos (mt h hb)
    rw [handleFull_not spill i (s, r) (Bool.eq_false_iff.mpr hb), hzero]
    rfl

/-- R34: a full store is no store's target, so it stands until its own turn. -/
theorem handleFull_brimming (r : Nat) (hki : k ≠ i) (hk : Brimming k s) : Brimming k (handleFull spill i (s, r)).1 := by
  have hroom : roomKj s k = 0 := Nat.sub_eq_zero_of_le (fullStore_iff.mp hk).1
  refine hk.of_store ((handleFull_touches spill i (s, r)).get .limits) ?_
  by_cases hb : Brimming i s
  · cases hj : fullTarget s i with
    | none => rw [handleFull_rejected spill i (s, r) hb hj]
    | some j =>
      obtain ⟨⟨hne, hpos, -⟩, -⟩ := (fullTarget_iff s i j).mp hj
      have hkj : k ≠ j := by rintro rfl; rw [hroom] at hpos; exact absurd hpos (Nat.lt_irrefl 0)
      rw [handleFull_moved spill i (s, r) hb hj]
      obtain ⟨-, -, hothers, -, -⟩ := (moveTrains_movesList (s := s) hne).add hne (min (roomKj s j) (spill.get i))
      exact hothers k hki hkj
  · rw [handleFull_not spill i (s, r) (Bool.eq_false_iff.mpr hb)]

end

/-- R34: over the stores, each in its turn. -/
theorem handleFulls_total (spill : PerStore Nat) : ∀ (l : List StoreIx) (s : State) (r : Nat), l.Nodup →
    (∀ i ∈ l, 0 < spill.get i → Brimming i s) →
      totalHeat (l.foldl (fun sr i => handleFull spill i sr) (s, r)).1 + (l.foldl (fun sr i => handleFull spill i sr) (s, r)).2
        = totalHeat s + r + (l.map spill.get).sum
  | [], _, _, _, _ => rfl
  | i :: l, s, r, hl, h => by
    obtain ⟨hil, hl⟩ := List.nodup_cons.mp hl
    have hi := handleFull_total r (h i (List.mem_cons_self ..))
    have hrest := handleFulls_total spill l (handleFull spill i (s, r)).1 (handleFull spill i (s, r)).2 hl fun k hk hpos =>
      handleFull_brimming r (fun hki => hil (hki ▸ hk)) (h k (List.mem_cons_of_mem _ hk) hpos)
    rw [List.foldl_cons, List.map_cons, List.sum_cons]
    refine hrest.trans ?_
    omega

/-! ### The second's heat (R33) -/

section
variable {s : State} (hcontent : ContentLaw s) (hside : StoreSeparation s)
include hcontent hside

/-- R33: only deliveries overflow a store, and no expander draws from one that takes them. -/
theorem brimming_of_overflow {i : StoreIx} (h : 0 < overflowOf s i) : Brimming i (moveHeat s) := by
  have hcap := hcontent i
  have hpos : deliveriesTo s i ≠ 0 := fun hd => by rw [overflowOf, hd] at h; omega
  have hcharge : (s.store i).holds .charge = true := by
    by_contra hn
    have hnone := (Store.holds_false_iff _ _).mp (Bool.eq_false_iff.mpr hn)
    refine hpos ?_
    rw [deliveriesTo, List.filter_eq_nil_iff.mpr (by simpa using hnone)]
    rfl
  have hno : (s.store i).holds .discharge = false := (hside i).resolve_left (by simp [hcharge])
  have hdraws : drawsFrom s i = 0 := by
    have hnone := (Store.holds_false_iff _ _).mp hno
    rw [drawsFrom, List.filter_eq_nil_iff.mpr (by simpa using hnone)]
    rfl
  refine fullStore_iff.mpr ?_
  rw [moveHeat_store]
  refine ⟨?_, (Store.holds_iff _ _).mp hcharge⟩
  show capacityKj s i ≤ heatedContent s i
  rw [heatedContent, hdraws]
  rw [overflowOf] at h
  omega

/-- R33 to R35: the heat that is in the stores after the full ones are handled, or rejected there, is what they held, with every
delivery and less every draw. -/
theorem fullStoresHandled_total (hdraws : ∀ i, drawsFrom s i ≤ (s.store i).contentKj) :
    totalHeat (fullStoresHandled s).1 + (fullStoresHandled s).2 + (StoreIx.all.map (drawsFrom s)).sum =
      totalHeat s + (StoreIx.all.map (deliveriesTo s)).sum := by
  have hfull := handleFulls_total (PerStore.ofFn (overflowOf s)) StoreIx.all (moveHeat s) 0 (by decide) fun i _ hpos =>
    brimming_of_overflow hcontent hside (by simpa using hpos)
  have hstore : ∀ i, heatedContent s i + overflowOf s i + drawsFrom s i = (s.store i).contentKj + deliveriesTo s i :=
    fun i => by
      have hcap := hcontent i
      have hdraw := hdraws i
      rw [heatedContent, overflowOf]
      omega
  have h0 := hstore .hs0
  have h1 := hstore .hs1
  have h2 := hstore .hs2
  rw [fullStoresHandled]
  simp only [totalHeat, sum_stores, moveHeat_store, PerStore.get_ofFn] at hfull ⊢
  omega

end

/-! ### The steps that move no heat (R36, R38) -/

theorem handleLow_content (i : StoreIx) (s : State) (k : StoreIx) :
    ((handleLow i s).store k).contentKj = (s.store k).contentKj := by
  unfold handleLow; split
  · split
    · rfl
    · exact moveTrains_content i _ s k
  · rfl

theorem storesSecond_total (s : State) : totalHeat (storesSecond s) = totalHeat (fullStoresHandled s).1 := by
  have hlow : totalHeat (lowStoresHandled s) = totalHeat (fullStoresHandled s).1 :=
    List.foldlRecOn (motive := fun u => totalHeat u = totalHeat (fullStoresHandled s).1) _ _ rfl fun u hu i _ =>
      (totalHeat_of_content (handleLow_content i u)).trans hu
  have hplaced := (eachTrain_quiet (lowStoresHandled s) assignLate (fun x u => assignLate_quiet x u) TrainIx.all).content
  rw [storesSecond_summarize, ← hlow, ← totalHeat_of_content hplaced, ← storesHandled_eq]
  exact totalHeat_of_content fun i => by rw [summarize_store]

/-- R38: a second's heat is rejected unless every full store's overflow went to another store. -/
theorem storesSecond_reject {s : State} (h : (storesSecond s).heat.summary.reject = false) :
    (fullStoresHandled s).2 = 0 := by
  rw [storesSecond_summarize, summarize_summary] at h
  have hnot := of_decide_eq_false h
  omega

/-! ### The other responses to a second -/

/-- The stores hold these contents, and the heat summary is v. -/
def HeatIs (content : StoreIx → Nat) (v : HeatSummary) (s : State) : Prop :=
  (∀ i, (s.store i).contentKj = content i) ∧ s.heat.summary = v

section
variable {content : StoreIx → Nat} {v : HeatSummary}

theorem heatIs_ignores {fs : List Field} (h : .heat ∉ fs) : Ignores (HeatIs content v) fs := fun s t hf hs => by
  have hheat : t.heat = s.heat := hf .heat h
  exact ⟨fun i => (congrArg (fun w : Heat => (w.store.get i).contentKj) hheat).trans (hs.1 i),
    (congrArg Heat.summary hheat).trans hs.2⟩

/-- What moves no heat leaves the contents and the summary. -/
theorem Quiet.heatIs {s t : State} (h : Quiet s t) (hs : HeatIs content v s) : HeatIs content v t :=
  ⟨fun i => (h.content i).trans (hs.1 i), h.summary.trans hs.2⟩

theorem trainsSecond_heatIs : Kept (HeatIs content v) trainsSecond := fun s hs =>
  heatIs_ignores (by decide) (touches_withTrains _ _)
    ((eachTrain_quiet s _ (fun x u => trainSecond_quiet u x) TrainIx.all).heatIs hs)

theorem dispatchSecond_heatIs : Kept (HeatIs content v) dispatchSecond := fun s hs => by
  rw [dispatchSecond_eq]
  have hformed := heatIs_ignores (by decide) (formTarget_touches s) hs
  exact heatIs_ignores (by decide) (meterSecond_touches _) ((dispatchTrains_quiet _).heatIs hformed)

theorem enteredSafe_heatIs : Kept (HeatIs content v) enteredSafe := fun s hs =>
  heatIs_ignores (by decide) ((releaseBoth_touches _ .safe).trans ((touches_withPort _ _).mono (by decide)))
    ((eachTrain_quiet s _ (fun x u => safeStop_quiet u x) TrainIx.all).heatIs hs)

/-- R128: of the responses to a second only the stores' own moves heat. -/
theorem secondResponse_heatIs {p : Part} (hp : p ≠ .storesSecond) : Kept (HeatIs content v) (secondResponse p) := by
  have hframe : .heat ∉ secondFields p → Kept (HeatIs content v) (secondResponse p) :=
    fun h s => heatIs_ignores h (secondResponse_frame p s)
  cases p with
  | storesSecond => exact absurd rfl hp
  | trainsSecond => exact trainsSecond_heatIs
  | dispatchSecond => exact dispatchSecond_heatIs
  | supervisionSecond => exact supervisionSecond_kept (heatIs_ignores (by decide)) enteredSafe_heatIs
  | _ => exact hframe (by decide)

end

/-- R128, R129: a second that ends no interval makes every part's response, in its order. -/
theorem exec_secondEvent_inside {order : List Part} {s : State} (hs : inReset s = false) (hd : s.due = [])
    (hshort : s.clock.running = true → s.clock.s + 1 < s.limits.lInt) :
    exec (.secondEvent ⟨order, []⟩) s = .next (run secondResponse (secondOrder order) s) :=
  congrArg Host.Outcome.next ((unlessHeld_taken s _ hs).trans (secondNow_inside hd (secondEnds_of_short hshort)))

/-- A second in which the stores respond first leaves the heat as that response leaves it. -/
theorem storesFirst_heatIs (s : State) :
    HeatIs (fun i => ((storesSecond s).store i).contentKj) (storesSecond s).heat.summary
      (run secondResponse (secondOrder [.storesSecond]) s) := by
  obtain ⟨l, hl⟩ : ∃ l, secondOrder [.storesSecond] = .storesSecond :: l := ⟨_, rfl⟩
  have hrest : .storesSecond ∉ l := (List.nodup_cons.mp (hl ▸ nodup_secondOrder _)).1
  rw [hl, run_cons]
  exact run_kept _ (fun p hp => secondResponse_heatIs (ne_of_mem_of_not_mem hp hrest)) _ ⟨fun _ => rfl, rfl⟩

end Sys2Proof.Machine
end

section
open Sys2Proof Sys2Proof.Machine

set_option Elab.async false

/-- Settles O22: the heat of the stores' response is that of its full stores, and the responses after it move none. -/
theorem heatIsConservedWithoutRejection : Obligations.HeatIsConservedWithoutRejection := by
  intro s t hs hd hcontent hside hshort hdraws hexec hreject
  rw [exec_secondEvent_inside hs hd hshort] at hexec
  have hend := storesFirst_heatIs s
  rw [Host.Outcome.next.inj hexec] at hend
  obtain ⟨hheld, hsummary⟩ := hend
  have htotal := fullStoresHandled_total hcontent hside hdraws
  rw [storesSecond_reject (by rw [← hsummary]; exact hreject), Nat.add_zero, ← storesSecond_total] at htotal
  simp only [hheld]
  exact htotal

end

section
/-! SUPPORT. O60: a state that meets the ledger law and from which one step leaves it. DueLaw says that no part is due twice, but not that a
response due to a second is one of those to a second; so a boundary can put off a response whose part is due already. -/

namespace Sys2Proof.Machine

set_option Elab.async false

/-- The reset state with the clock RUNNING, the table's response due to a second, which has none, and a boundary that puts the table's
response off. -/
def misfiledDue : State :=
  ((State.reset.withClock { State.reset.clock with running := true }).withDue [.second .tableBoundary]).withPending
    [.boundary ⟨[], [.tableBoundary]⟩]

theorem misfiledDue_dueLaw : DueLaw misfiledDue :=
  ⟨fun _ _ h => absurd (List.mem_singleton.mp h) nofun, List.nodup_singleton _⟩

/-- The table, the trial in hand, the limits and the closing figures are those of reset. -/
theorem misfiledDue_ledgerLaw : LedgerLaw misfiledDue := by
  obtain ⟨hentry, -, -, hreset⟩ := afterReset_ledgerLaw (PerTrain.ofFn fun _ => false)
  exact ⟨hentry, nofun, misfiledDue_dueLaw, hreset⟩

/-- The boundary puts the table's response off beside the one that is due. -/
theorem misfiledDue_step : ∃ t, step misfiledDue = .next t ∧ t.due.map Due.part = [.tableBoundary, .tableBoundary] :=
  ⟨_, rfl, by decide +kernel⟩

end Sys2Proof.Machine
end

section
open Sys2Proof Sys2Proof.Machine

set_option Elab.async false

/-- Refutes O60: from misfiledDue a boundary leaves the table's response due twice, against DueLaw. -/
theorem not_stepKeepsLedgerLaw : ¬ Obligations.StepKeepsLedgerLaw := by
  intro h
  obtain ⟨t, hstep, hparts⟩ := misfiledDue_step
  obtain ⟨-, -, ⟨-, hnodup⟩, -⟩ := h misfiledDue t misfiledDue_ledgerLaw hstep
  rw [hparts] at hnodup
  exact absurd hnodup (by decide)

end

section
/-! SUPPORT. O2: what is due, once made, is due no longer, so that to settle it twice is to settle it once (R69, R90, log 24). -/

namespace Sys2Proof.Machine

set_option Elab.async false

section
variable (s : State)

/-- What is due of the other kind stays due. -/
theorem settle_due (b : Bool) : (settle b s).due = s.due.filter fun d => d.toBoundary != b :=
  (respondAll_touches (s.withDue _) _).get .due

/-- With nothing due of a kind there is nothing of it to settle. -/
theorem settle_none {b : Bool} (h : ∀ d ∈ s.due, (d.toBoundary != b) = true) : settle b s = s := by
  have hmade : (s.due.filter fun d => d.toBoundary == b) = [] :=
    List.filter_eq_nil_iff.mpr fun d hd => by simpa using h d hd
  rw [settle, hmade, List.filter_eq_self.mpr h]
  rfl

theorem settle_settle (b : Bool) : settle b (settle b s) = settle b s := by
  refine settle_none _ fun d hd => ?_
  rw [settle_due] at hd
  exact (List.mem_filter.mp hd).2

theorem settle_inReset (b : Bool) : inReset (settle b s) = inReset s := by
  rw [inReset, show (settle b s).por = s.por from (settle_touches s b).get .por, inReset]

theorem settle_clock (b : Bool) : (settle b s).clock = s.clock := (settle_touches s b).get .clock

/-- A boundary begins by making what is due to an earlier one. -/
theorem boundaryNow_settle (how : Schedule) : boundaryNow how (settle true s) = boundaryNow how s := by
  rw [boundaryNow, settle_settle, boundaryNow]

/-- A second begins by making what is due to earlier seconds. -/
theorem secondNow_settle (how : Schedule) : secondNow how (settle false s) = secondNow how s := by
  rw [secondNow, settleForSecond, settle_settle, secondNow, settleForSecond]

/-- Where it is taken, BOUNDARY ends the interval. -/
theorem exec_boundary_taken {how : Schedule} (hs : inReset s = false) (hr : s.clock.running = true) :
    exec (.boundary how) s = .next (boundaryNow how s) :=
  congrArg Host.Outcome.next ((unlessHeld_taken s _ hs).trans (if_pos hr))

theorem exec_boundary_not {how : Schedule} (h : ¬ (inReset s = false ∧ s.clock.running = true)) :
    exec (.boundary how) s = .next s := by
  cases hs : inReset s
  · exact congrArg Host.Outcome.next ((unlessHeld_taken s _ hs).trans (if_neg fun hr => h ⟨hs, hr⟩))
  · exact congrArg Host.Outcome.next (unlessHeld_held s _ hs)

theorem exec_second_taken {how : Schedule} (hs : inReset s = false) :
    exec (.secondEvent how) s = .next (secondNow how s) :=
  congrArg Host.Outcome.next (unlessHeld_taken s _ hs)

variable {s}

theorem step_idle (hp : s.pending = []) : step s = .next (unlessHeld respondNext s) := by
  unfold step; rw [hp]

theorem respondNext_cons {d : Due} {ds : List Due} (h : s.due = d :: ds) :
    respondNext s = respondDue d (s.withDue ds) := by
  unfold respondNext; rw [h]

theorem respondNext_nil (h : s.due = []) : respondNext s = s := by
  unfold respondNext; rw [h]

/-- A boundary whose responses are all put off moves the clock alone, and owes them in their order. -/
theorem boundaryNow_allPutOff (hd : s.due = []) (order : List Part) : boundaryNow ⟨order, boundaryParts⟩ s =
    (endInterval s).withDue (boundaryDues order (turnOf s)) := by
  have hlater : ∀ d ∈ boundaryDues order (turnOf s), boundaryParts.contains d.part = true := fun d hd => by
    obtain ⟨p, hp, rfl⟩ := List.mem_map.mp hd
    have hanswers := (mem_boundaryOrder order p).mp hp
    show boundaryParts.contains p = true
    revert hanswers
    cases p <;> decide
  have hmade : (boundaryDues order (turnOf s)).filter (fun d => !boundaryParts.contains d.part) = [] :=
    List.filter_eq_nil_iff.mpr fun d hd => by simpa using hlater d hd
  unfold boundaryNow; dsimp only
  rw [settle_nothing s true hd, respondOrPutOff, hmade, List.filter_eq_self.mpr hlater]
  show (endInterval s).withDue (s.due ++ _) = _
  rw [hd, List.nil_append]

/-- The responses of a boundary, made at once. -/
theorem boundaryNow_nonePutOff (hd : s.due = []) (order : List Part) : boundaryNow ⟨order, []⟩ s =
    respondAll (boundaryDues order (turnOf s)) ((endInterval s).withDue []) := by
  have hdue : (endInterval s).withDue [] = endInterval s := by rw [← hd]; rfl
  unfold boundaryNow; dsimp only
  rw [settle_nothing s true hd, respondOrPutOff_none, hdue]

end

end Sys2Proof.Machine
end

section
open Sys2Proof Sys2Proof.Machine

set_option Elab.async false

/-- Settles O2: an empty queue makes the oldest response, an event begins by settling, and a boundary that puts every response off owes
those that one that puts none off makes. -/
theorem stepIdlesOnEmptyQueue : Obligations.StepIdlesOnEmptyQueue := by
  intro s
  refine ⟨fun hp hidle => ?_, fun d ds hp hs hd => ?_, fun order later => ?_, fun order later hs _ => ?_,
    fun order hs hrun hd => ?_⟩
  · rw [step_idle hp]
    rcases hidle with hs | hd
    · rw [unlessHeld_held s _ hs]
    · cases hs : inReset s
      · rw [unlessHeld_taken s _ hs, respondNext_nil hd]
      · rw [unlessHeld_held s _ hs]
  · rw [step_idle hp, unlessHeld_taken s _ hs, respondNext_cons hd]
  · split
    next h =>
      rw [exec_boundary_taken s h.1 h.2, exec_boundary_taken _ ((settle_inReset s true).trans h.1) (by
        rw [settle_clock]; exact h.2), boundaryNow_settle]
    next h => exact exec_boundary_not s h
  · rw [exec_second_taken s hs, exec_second_taken _ ((settle_inReset s false).trans hs), secondNow_settle]
  · refine ⟨_, (exec_boundary_taken s hs hrun).trans (congrArg _ (boundaryNow_allPutOff hd order)), ?_, fun d hmem => ?_,
      (endInterval_touches s).comp (touches_withDue _ _), ?_⟩
    · exact List.map_map.trans (List.map_id _)
    · obtain ⟨p, -, rfl⟩ := List.mem_map.mp hmem
      rfl
    · exact (exec_boundary_taken s hs hrun).trans (congrArg _ (boundaryNow_nonePutOff hd order))

end

section
/-! SUPPORT. O30: the id of the next admission (R49). The search tries as many values as there are records, all different, so it cannot
find each of them held. -/

namespace Sys2Proof.Machine

set_option Elab.async false

/-- R49: the values that follow an id go round 1..65,535. -/
theorem idAfter_iterate {id : Nat} (hlo : 1 ≤ id) (hhi : id ≤ 65535) (k : Nat) :
    idAfter^[k] id = (id - 1 + k) % 65535 + 1 := by
  induction k with
  | zero => rw [Function.iterate_zero_apply]; omega
  | succ k ih =>
    rw [Function.iterate_succ_apply', ih, idAfter]
    split <;> omega

/-- The ids a list of records holds. -/
abbrev HeldIn (es : List Entry) (id : Nat) : Prop := ∃ e ∈ es, e.id = id

/-- R49: the search takes the first value that is free, or after its last try the value that follows. -/
theorem freeIdFrom_spec (es : List Entry) : ∀ tries id : Nat, ∃ k ≤ tries, freeIdFrom es tries id = idAfter^[k] id
    ∧ (∀ j < k, HeldIn es (idAfter^[j] id)) ∧ (k < tries → ¬ HeldIn es (idAfter^[k] id))
  | 0, id => ⟨0, le_rfl, rfl, nofun, nofun⟩
  | tries + 1, id => by
    by_cases hheld : HeldIn es id
    · obtain ⟨k, hk, heq, hbefore, hfree⟩ := freeIdFrom_spec es tries (idAfter id)
      refine ⟨k + 1, Nat.succ_le_succ hk, ?_, fun j hj => ?_, fun h => hfree (Nat.lt_of_succ_lt_succ h)⟩
      · rw [freeIdFrom, if_pos (by simpa using hheld), heq, Function.iterate_succ_apply]
      · cases j with
        | zero => exact hheld
        | succ j => exact hbefore j (Nat.lt_of_succ_lt_succ hj)
    · refine ⟨0, Nat.zero_le _, ?_, nofun, fun _ => hheld⟩
      rw [freeIdFrom, if_neg (by simpa using hheld), Function.iterate_zero_apply]

/-- Fewer records than values cannot hold one value after another, each different. -/
theorem exists_free_of_injective {es : List Entry} {f : Nat → Nat} {k : Nat}
    (hf : ∀ i ≤ k, ∀ j ≤ k, f i = f j → i = j) (hk : es.length ≤ k) : ∃ j ≤ k, ¬ HeldIn es (f j) := by
  by_contra hall
  push Not at hall
  have hnodup : ((List.range (k + 1)).map f).Nodup := List.nodup_range.map_on fun i hi j hj =>
    hf i (Nat.lt_succ_iff.mp (List.mem_range.mp hi)) j (Nat.lt_succ_iff.mp (List.mem_range.mp hj))
  have hsub : (List.range (k + 1)).map f ⊆ es.map (·.id) := fun x hx => by
    obtain ⟨i, hi, rfl⟩ := List.mem_map.mp hx
    obtain ⟨e, he, hid⟩ := hall i (Nat.lt_succ_iff.mp (List.mem_range.mp hi))
    exact List.mem_map.mpr ⟨e, he, hid⟩
  have hlength := (hnodup.subperm hsub).length_le
  rw [List.length_map, List.length_map, List.length_range] at hlength
  omega

/-- R49: the id the next admission takes is in range and free. -/
theorem takeId_free {s : State} (h : TableLaw s) : ¬ HeldIn s.table.entries (takeId s) ∧ 1 ≤ takeId s ∧ takeId s ≤ 65535 := by
  obtain ⟨hsize, -, -, hlo, hhi⟩ := h
  obtain ⟨k, hk, heq, hbefore, hfree⟩ := freeIdFrom_spec s.table.entries s.table.entries.length s.table.nextId
  have hiter := idAfter_iterate hlo hhi
  rw [takeId, heq]
  refine ⟨?_, by rw [hiter]; omega, by rw [hiter]; omega⟩
  rcases Nat.lt_or_eq_of_le hk with hlt | hlast
  · exact hfree hlt
  · have hinj : ∀ i ≤ k, ∀ j ≤ k, idAfter^[i] s.table.nextId = idAfter^[j] s.table.nextId → i = j := by
      intro i hi j hj hij
      rw [hiter, hiter] at hij
      omega
    obtain ⟨j, hj, hn⟩ := exists_free_of_injective hinj hlast.ge
    rcases Nat.lt_or_eq_of_le hj with hlt | rfl
    · exact absurd (hbefore j hlt) hn
    · exact hn

/-- R49: next_id itself is taken where it is free. -/
theorem takeId_nextId {s : State} (h : ¬ HeldIn s.table.entries s.table.nextId) : takeId s = s.table.nextId := by
  obtain ⟨k, -, heq, hbefore, -⟩ := freeIdFrom_spec s.table.entries s.table.entries.length s.table.nextId
  rw [takeId, heq]
  cases k with
  | zero => rfl
  | succ k => exact absurd (hbefore 0 k.succ_pos) h

end Sys2Proof.Machine
end

section
open Sys2Proof Sys2Proof.Machine

set_option Elab.async false

/-- Settles O30, by the search's specification: were every value it tries held, the records would be more than they are. -/
theorem nextIdIsFree : Obligations.NextIdIsFree := by
  intro s hs
  obtain ⟨hfree, hlo, hhi⟩ := takeId_free hs
  exact ⟨fun e he hid => hfree ⟨e, he, hid⟩, hlo, hhi, fun hnone => takeId_nextId fun ⟨e, he, hid⟩ => hnone e he hid⟩

end

section
/-! SUPPORT. O29: the pages of FIND_INTERVAL and FIND_REFERENCE (R62, R63). -/

namespace Sys2Proof.Machine

set_option Elab.async false

/-- R62: the records after a resume position that match, in index order. -/
theorem matchesAfter_eq (s : State) (first seq : Nat) (hit : Entry → Bool) : matchesAfter s first seq hit =
    s.table.entries.filter fun e => decide (first < e.first ∨ first = e.first ∧ seq < e.seq) && hit e :=
  List.filter_congr fun e _ => by rw [Bool.decide_or, Bool.decide_and]

/-- R62: a page in bytes, with the key of the last record listed, or the request's own position. -/
theorem pageBytes_eq (first seq : Nat) (found : List Entry) : pageBytes first seq found =
    (let page := found.take 16
     let resume := (page.getLast?.map fun e => (e.first, e.seq)).getD (first, seq)
     u8 page.length ++ flag (decide (16 < found.length)) ++ u32 resume.1 ++ u32 resume.2
       ++ page.flatMap fun e => u16 e.id) := by
  unfold pageBytes; dsimp only
  cases (found.take 16).getLast? <;> rfl

theorem Entry.covers_eq (e : Entry) (n : Nat) : e.covers n = decide (e.first ≤ n ∧ n ≤ e.last) := (Bool.decide_and ..).symm

end Sys2Proof.Machine
end

section
open Sys2Proof Sys2Proof.Machine

set_option Elab.async false

/-- Settles O29: both searches answer one page of the records of the accepted state, whose table is that before the frame. -/
theorem findReturnsPagesInOrder : Obligations.FindReturnsPagesInOrder := by
  rintro s h n first seq tag i hit (⟨rfl, rfl⟩ | ⟨rfl, rfl⟩) hg
  · refine ⟨.findInterval, rfl, ?_⟩
    rw [exec_findInterval h n first seq hg, ownFindInterval, matchesAfter_eq, pageBytes_eq, accepted_table]
    simp only [Entry.covers_eq]
  · refine ⟨.findReference, rfl, ?_⟩
    rw [exec_findReference h tag first seq hg, ownFindReference, matchesAfter_eq, pageBytes_eq, accepted_table]
    rfl

end

section
/-! SUPPORT. O27: WITHDRAW and SETTLE by what they find (R57, R58, R60). -/

namespace Sys2Proof.Machine

set_option Elab.async false

section
variable {s : State}

/-- The records an owner finds are those before the frame. -/
@[simp] theorem accepted_findEntry (id : Nat) : findEntry s.accepted id = findEntry s id := by
  rw [findEntry, accepted_table, findEntry]

theorem findEntry_id {id : Nat} {e : Entry} (h : findEntry s id = some e) : e.id = id := by
  simpa using List.find?_some h

theorem findEntry_mem {id : Nat} {e : Entry} (h : findEntry s id = some e) : e ∈ s.table.entries := List.mem_of_find?_eq_some h

/-- R52, R54, R57: the gate of an entry is judged on the clock and the limits before the frame. -/
theorem gateClosed_accepted (e : Entry) : gateClosed s.accepted e = true ↔ PastGate s e := by
  rw [gateClosed, accepted_clock, accepted_limits, decide_eq_true_eq]

theorem EntryStatus.not_open_of_closed {st : EntryStatus} (h : st.isClosed = true) : st.isOpen = false ∧ st ≠ .active := by
  cases st with
  | delivered | curtailed => exact ⟨rfl, nofun⟩
  | _ => cases h

/-! ### WITHDRAW (R57, R58) -/

section
variable {client : Client} {id : Half}

theorem ownWithdraw_none (h : findEntry s id.toNat = none) :
    ownWithdraw client id s = answer 0x22 .noSuchEntry [] s := by simp only [ownWithdraw, h]; rfl

section
variable {e : Entry} (he : findEntry s id.toNat = some e)
include he

theorem ownWithdraw_gateClosed (ho : e.status.isOpen = true) (hg : client = .trading ∧ gateClosed s e = true) :
    ownWithdraw client id s = answer 0x22 .gateClosed [] s := by
  simp only [ownWithdraw, he]; exact (if_pos ho).trans (if_pos hg)

theorem ownWithdraw_open (ho : e.status.isOpen = true) (hg : ¬ (client = .trading ∧ gateClosed s e = true)) :
    ownWithdraw client id s = answer 0x22 .ok (u8 e.status.code) (basisChange (freeSlot e.id s)) := by
  simp only [ownWithdraw, he]; exact (if_pos ho).trans (if_neg hg)

theorem ownWithdraw_active (ha : e.status = .active) (hc : client = .plant) : ownWithdraw client id s =
    answer 0x22 .ok (u8 EntryStatus.curtailed.code ++ u32 e.delivered ++ u8 (e.shortCount + 1))
      (basisChange (raise .entryClosed (putEntry (curtailed e) s))) := by
  have ho : ¬ e.status.isOpen = true := by rw [ha]; decide
  simp only [ownWithdraw, he]; exact (if_neg ho).trans (if_pos ⟨hc, ha⟩)

theorem ownWithdraw_wrongState (ho : e.status.isOpen = false) (hc : ¬ (client = .plant ∧ e.status = .active)) :
    ownWithdraw client id s = answer 0x22 .wrongState [] s := by
  simp only [ownWithdraw, he]; exact (if_neg (by simp [ho])).trans (if_neg hc)

/-! ### SETTLE (R60) -/

theorem ownSettle_closed (hc : e.status.isClosed = true) : ownSettle id s = answer 0x23 .ok (settleBytes e) (freeSlot e.id s) := by
  simp only [ownSettle, he]; exact if_pos hc

theorem ownSettle_wrongState (hc : e.status.isClosed = false) : ownSettle id s = answer 0x23 .wrongState [] s := by
  simp only [ownSettle, he]; exact if_neg (by simp [hc])

end

theorem ownSettle_none (h : findEntry s id.toNat = none) : ownSettle id s = answer 0x23 .noSuchEntry [] s := by
  simp only [ownSettle, h]; rfl

end

/-- R57, R60: a freed slot holds no entry. -/
theorem findEntry_freeSlot (id : Nat) (s : State) : findEntry (freeSlot id s) id = none :=
  findEntry_none fun _ he => by simpa using (List.mem_filter.mp he).2

/-- A reply is no entry's. -/
theorem findEntry_answer (c : Byte) (r : Result) (p : List Byte) (s : State) (id : Nat) :
    findEntry (answer c r p s) id = findEntry s id := rfl

/-- A request in good order is so again once it has been answered. -/
theorem InGoodOrder.answered {i : Instr} {fs : List Field} {u : State} (hg : InGoodOrder i s) (hf : Touches fs s u)
    (c : Byte) (r : Result) (p : List Byte) (hp : .por ∉ fs := by decide) : InGoodOrder i (answer c r p u) := by
  obtain ⟨hs, -, hrequest⟩ := hg
  refine ⟨?_, answer_not_busy u c r p, hrequest⟩
  show inReset u = false
  rw [inReset, show u.por = s.por from hf .por hp]
  exact hs

end

end Sys2Proof.Machine
end

section
open Sys2Proof Sys2Proof.Machine

set_option Elab.async false

/-- Settles O27: each request by the record it finds and that record's status; a settled record's slot is free. -/
theorem withdrawAndSettle : Obligations.WithdrawAndSettle := by
  refine ⟨fun s h id hg => ?_, fun s h id hg => ?_⟩
  · rw [Refuses, exec_withdraw h id hg]
    refine ⟨fun hnone => ?_, fun e he => ?_⟩
    · rw [ownWithdraw_none (by rwa [accepted_findEntry])]
    · have hfound := (accepted_findEntry _).trans he
      have hgate : ∀ {c : Client}, c = .trading ∧ gateClosed s.accepted e = true ↔ c = .trading ∧ PastGate s e :=
        and_congr_right fun _ => gateClosed_accepted e
      rw [Refuses, Refuses, exec_withdraw h id hg]
      refine ⟨fun hw => ?_, fun ho hclosed => ?_, fun ho hopen => ?_, fun ha hc => ?_⟩
      · rcases hw with hc | ⟨hclient, ha⟩
        · obtain ⟨ho, ha⟩ := EntryStatus.not_open_of_closed hc
          rw [ownWithdraw_wrongState hfound ho fun hn => ha hn.2]
        · rw [ownWithdraw_wrongState hfound (by rw [ha]; rfl) fun hn => nomatch hclient.symm.trans hn.1]
      · rw [ownWithdraw_gateClosed hfound ho (hgate.mpr hclosed)]
      · rw [ownWithdraw_open hfound ho (mt hgate.mp hopen), freeSlot, accepted_table]
      · rw [ownWithdraw_active hfound ha hc]
        rfl
  · rw [Refuses, exec_settle h id hg]
    refine ⟨fun hnone => ?_, fun e he => ?_⟩
    · rw [ownSettle_none (by rwa [accepted_findEntry])]
    · have hfound := (accepted_findEntry _).trans he
      rw [Refuses, exec_settle h id hg]
      refine ⟨fun hc => ?_, fun hc => ⟨_, rfl, ?_, ?_, ?_⟩⟩
      · rw [ownSettle_wrongState hfound hc]
      · rw [ownSettle_closed hfound hc, freeSlot, accepted_table]
      all_goals
        have hfree : findEntry (answer 0x23 .ok (settleBytes e)
            (s.accepted.setEntries (s.table.entries.filter fun x => decide (x.id ≠ e.id)))) id.toNat = none := by
          rw [findEntry_answer, ← accepted_table, ← findEntry_id he]
          exact findEntry_freeSlot e.id s.accepted
      · exact hfree
      · have hframe : Touches [.port, .supervision, .table] s
            (s.accepted.setEntries (s.table.entries.filter fun x => decide (x.id ≠ e.id))) :=
          (accepted_touches s).comp (setEntries_touches _ _)
        rw [Refuses, exec_settle h id (hg.answered hframe _ _ _), ownSettle_none (by rwa [accepted_findEntry])]

end

section
/-! SUPPORT. O23: the candidate an ADMIT makes (R51), and what becomes of a candidate handed to the engine (R91, R92). -/

namespace Sys2Proof.Machine

set_option Elab.async false

/-! ### A candidate handed to the engine (R91, R92, R184) -/

section
variable (c : Candidate) (f : InFlight) (s : State)

/-- R92: a trial is placed WAITING, or RUNNING on a VALID projection whose rows reach its last interval. -/
theorem placeTrial_cases : placeTrial c s = .waiting c ∨ ∃ w, s.proj.walkBasis = some w ∧ s.proj.state = .valid
    ∧ c.entry.last ≤ w.base + 191 ∧ placeTrial c s = .running c (trialIncluded s.table.entries c) := by
  unfold placeTrial
  split
  next w hstate hbasis =>
    split
    next hreach => exact .inr ⟨w, hbasis, hstate, by simpa [trialReaches] using hreach, rfl⟩
    next => exact .inl rfl
  next => exact .inl rfl

theorem handCandidate_proj : (handCandidate c f s).proj = { s.proj with trial := placeTrial c s, restarts := 0 } := rfl

theorem handCandidate_port : (handCandidate c f s).port = { s.port with inFlight := some f } := rfl

end

/-- A candidate handed to the engine by the owner of a request, seen from before the frame. -/
theorem handCandidate_accepted (c : Candidate) (f : InFlight) (s : State) :
    (handCandidate c f s.accepted).proj = { s.proj with trial := placeTrial c s.accepted, restarts := 0 }
      ∧ (handCandidate c f s.accepted).port = { s.port with reply := [], overrun := false, inFlight := some f }
      ∧ Touches [.proj, .port, .supervision] s (handCandidate c f s.accepted) := by
  refine ⟨?_, ?_, (accepted_touches s).comp (handCandidate_touches _ c f)⟩
  · rw [handCandidate_proj, accepted_proj]
  · rw [handCandidate_port, accepted_port]

/-! ### ADMIT (R51) -/

theorem entryKindOf_none {b : Byte} (h : 4 ≤ b.toNat) : entryKindOf b = none := List.getElem?_eq_none h

theorem entryKindOf_some {b : Byte} {k : EntryKind} (h : entryKindOf b = some k) : b.toNat < 4 :=
  (List.getElem?_eq_some_iff.mp h).1

theorem entryKindOf_isSome {b : Byte} (h : b.toNat < 4) : ∃ k, entryKindOf b = some k := ⟨_, List.getElem?_eq_getElem h⟩

/-- R51: the entry an ADMIT asks for, of a kind. -/
def admitted (a : AdmitArgs) (kind : EntryKind) : Entry :=
  { id := 0, kind, first := a.first.toNat, span := a.span.toNat, power := a.power.toNat, price := a.price.toInt
    reference := a.reference.toNat, seq := 0, status := .admitted, delivered := 0, shortCount := 0 }

section
variable {s : State} {a : AdmitArgs}

theorem candidateOf_inRange (h : AdmitInRange s a) :
    ∃ k, entryKindOf a.kind = some k ∧ candidateOf s a = some (admitted a k) := by
  obtain ⟨hkind, hspan, hspan', hpower, hpower', hprice, hprice', hgate, hlast, hwrap⟩ := h
  obtain ⟨k, hk⟩ := entryKindOf_isSome hkind
  refine ⟨k, hk, ?_⟩
  simp only [candidateOf, hk, Option.bind_eq_bind, Option.bind_some]
  refine if_pos ⟨hspan, hspan', ?_, ?_, hgate, ?_, ?_⟩
  · simp [powerOk, hpower, hpower']
  · simp [priceOk, hprice, hprice']
  · show a.first.toNat + a.span.toNat - 1 ≤ _; omega
  · show a.first.toNat + a.span.toNat - 1 ≤ _; omega

theorem candidateOf_outOfRange (h : ¬ AdmitInRange s a) : candidateOf s a = none := by
  cases hk : entryKindOf a.kind with
  | none => simp only [candidateOf, hk, Option.bind_eq_bind, Option.bind_none]
  | some k =>
    simp only [candidateOf, hk, Option.bind_eq_bind, Option.bind_some]
    refine if_neg fun ⟨hspan, hspan', hpower, hprice, hgate, hlast, hwrap⟩ => h ?_
    have hp : 1 ≤ a.power.toNat ∧ a.power.toNat ≤ 500000 := by simpa [powerOk] using hpower
    have hq : -1000000 ≤ a.price.toInt ∧ a.price.toInt ≤ 1000000 := by simpa [priceOk] using hprice
    change a.first.toNat + a.span.toNat - 1 ≤ _ at hlast
    change a.first.toNat + a.span.toNat - 1 ≤ _ at hwrap
    change 1 ≤ a.span.toNat at hspan
    exact ⟨entryKindOf_some hk, hspan, hspan', hp.1, hp.2, hq.1, hq.2, hgate, by omega, by omega⟩

theorem ownAdmit_badArgument (h : ¬ AdmitInRange s a) : ownAdmit a s = answer 0x20 .badArgument [] s := by
  simp only [ownAdmit, candidateOf_outOfRange h]; rfl

theorem ownAdmit_modeRefused (h : AdmitInRange s a) (hm : s.mode ≠ .normal) :
    ownAdmit a s = answer 0x20 .modeRefused [] s := by
  obtain ⟨k, -, hc⟩ := candidateOf_inRange h
  simp only [ownAdmit, hc]; exact if_pos hm

theorem ownAdmit_tableFull (h : AdmitInRange s a) (hm : s.mode = .normal) (hfull : 128 ≤ s.table.entries.length) :
    ownAdmit a s = answer 0x20 .tableFull [] s := by
  obtain ⟨k, -, hc⟩ := candidateOf_inRange h
  simp only [ownAdmit, hc]; exact (if_neg (not_not_intro hm)).trans (if_pos hfull)

theorem ownAdmit_taken (h : AdmitInRange s a) (hm : s.mode = .normal) (hroom : s.table.entries.length < 128) :
    ∃ k, entryKindOf a.kind = some k ∧ ownAdmit a s = handCandidate ⟨admitted a k, false⟩ .admitEntry s := by
  obtain ⟨k, hk, hc⟩ := candidateOf_inRange h
  refine ⟨k, hk, ?_⟩
  simp only [ownAdmit, hc]; exact (if_neg (not_not_intro hm)).trans (if_neg (Nat.not_le.mpr hroom))

theorem admitInRange_accepted : AdmitInRange s.accepted a ↔ AdmitInRange s a := by
  rw [AdmitInRange, accepted_clock, accepted_limits]

end

end Sys2Proof.Machine
end

section
open Sys2Proof Sys2Proof.Machine

set_option Elab.async false

/-- Settles O23: each refusal on the accepted state, and else the candidate's trial as R92 places it. -/
theorem admitIsJudgedInOrder : Obligations.AdmitIsJudgedInOrder := by
  intro s h a hg
  rw [Refuses, Refuses, Refuses, exec_admit h a hg]
  refine ⟨fun hbad => ?_, fun hok hm => ?_, fun hok hm hfull => ?_, fun hok hm hroom => ?_⟩
  · rw [ownAdmit_badArgument (mt admitInRange_accepted.mp hbad)]
  all_goals have hrange := admitInRange_accepted.mpr hok
  · rw [ownAdmit_modeRefused hrange (by rwa [accepted_mode])]
  · rw [ownAdmit_tableFull hrange (by rwa [accepted_mode]) (by rwa [accepted_table])]
  · obtain ⟨k, hk, htaken⟩ := ownAdmit_taken hrange (by rwa [accepted_mode]) (by rwa [accepted_table])
    obtain ⟨hproj, hport, htouches⟩ := handCandidate_accepted ⟨admitted a k, false⟩ .admitEntry s
    refine ⟨_, ⟨admitted a k, false⟩, congrArg _ htaken, hproj, ?_, rfl, hk, rfl, rfl, rfl, rfl, rfl, rfl, rfl, rfl, hport,
      htouches⟩
    simp only [handCandidate_proj]
    rcases placeTrial_cases ⟨admitted a k, false⟩ s.accepted with hwait | ⟨w, hbasis, hstate, hreach, hrun⟩
    · exact .inl hwait
    · rw [accepted_proj] at hbasis hstate
      rw [accepted_table] at hrun
      exact .inr ⟨w, hbasis, hstate, hreach, hrun⟩

end

section
/-! SUPPORT. O25: AMEND by the fields it names and the entry it finds (R54 to R56, R201). -/

namespace Sys2Proof.Machine

set_option Elab.async false

/-- R54, R201: the fields an AMEND names. -/
def namedFields (a : AmendArgs) : Amendment :=
  { power := if a.fields.getLsbD 0 then some a.power.toNat else none
    price := if a.fields.getLsbD 1 then some a.price.toInt else none
    reference := if a.fields.getLsbD 2 then some a.reference.toNat else none }

/-- R54, R55: an entry as an AMEND asks for it. -/
abbrev amendedBy (a : AmendArgs) (e : Entry) : Entry := amended e (namedFields a)

theorem getD_named {α : Type} (b : Bool) (v w : α) : (if b then some v else none).getD w = if b then v else w := by
  cases b <;> rfl

theorem all_named {α : Type} (b : Bool) (v : α) (p : α → Bool) :
    (if b then some v else none).all p = true ↔ (b = true → p v = true) := by cases b <;> simp

theorem amendedBy_eq (a : AmendArgs) (e : Entry) : amendedBy a e =
    { e with power := amendPower a e, price := amendPrice a e, reference := amendReference a e } := by
  simp only [amendedBy, amended, namedFields, getD_named, amendPower, amendPrice, amendReference]

section
variable {a : AmendArgs}

theorem namedFields_inRange : AmendInRange a ↔ 1 ≤ a.fields.toNat ∧ a.fields.toNat ≤ 7
    ∧ (namedFields a).power.all powerOk = true ∧ (namedFields a).price.all priceOk = true := by
  simp only [namedFields, all_named, powerOk, priceOk, Bool.and_eq_true, decide_eq_true_eq]

theorem amendmentOf_inRange (h : AmendInRange a) : amendmentOf a = some (namedFields a) :=
  if_pos (namedFields_inRange.mp h)

theorem amendmentOf_outOfRange (h : ¬ AmendInRange a) : amendmentOf a = none := if_neg (mt namedFields_inRange.mpr h)

section
variable {s : State} {client : Client}

theorem ownAmend_badArgument (h : ¬ AmendInRange a) : ownAmend client a s = answer 0x21 .badArgument [] s := by
  simp only [ownAmend, amendmentOf_outOfRange h]; rfl

section
variable (hr : AmendInRange a)
include hr

theorem ownAmend_noSuchEntry (h : findEntry s a.id.toNat = none) :
    ownAmend client a s = answer 0x21 .noSuchEntry [] s := by
  simp only [ownAmend, amendmentOf_inRange hr, h]; rfl

section
variable {e : Entry} (he : findEntry s a.id.toNat = some e)
include he

theorem ownAmend_wrongState (ho : e.status.isOpen = false) : ownAmend client a s = answer 0x21 .wrongState [] s := by
  simp only [ownAmend, amendmentOf_inRange hr, he]; exact if_pos (by simp [ho])

section
variable (ho : e.status.isOpen = true)
include ho

theorem ownAmend_gateClosed (hg : client = .trading ∧ gateClosed s e = true) :
    ownAmend client a s = answer 0x21 .gateClosed [] s := by
  simp only [ownAmend, amendmentOf_inRange hr, he]; exact (if_neg (by simp [ho])).trans (if_pos hg)

/-- R54: an AMEND of an open entry, not too late, is judged on the power it asks for. -/
theorem ownAmend_open (hg : ¬ (client = .trading ∧ gateClosed s e = true)) : ownAmend client a s =
    if e.power < (amendedBy a e).power ∧ s.mode ≠ .normal then answer 0x21 .modeRefused [] s
    else if (amendedBy a e).power ≠ e.power then
      handCandidate ⟨{ e with power := (amendedBy a e).power }, true⟩
        (.amend client e.id (amendedBy a e).power (namedFields a).price (namedFields a).reference) s
    else if amendedBy a e = e then answer 0x21 .ok (amendBytes e) s
    else answer 0x21 .ok (amendBytes (amendedBy a e)) (basisChange (putEntry (amendedBy a e) s)) := by
  simp only [ownAmend, amendmentOf_inRange hr, he]
  exact (if_neg (by simp [ho])).trans (if_neg hg)

end

end

end

end

end

end Sys2Proof.Machine
end

section
open Sys2Proof Sys2Proof.Machine

set_option Elab.async false

/-- Settles O25: each refusal on the accepted state, and else the three things an AMEND of an open entry can be. -/
theorem amendIsJudgedInOrder : Obligations.AmendIsJudgedInOrder := by
  intro s h a hg
  rw [Refuses, Refuses, exec_amend h a hg]
  refine ⟨fun hbad => ?_, fun hr hnone => ?_, fun e hr hfound => ?_⟩
  · rw [ownAmend_badArgument hbad]
  · rw [ownAmend_noSuchEntry hr (by rwa [accepted_findEntry])]
  · have he := (accepted_findEntry _).trans hfound
    have hgate : h.client = .trading ∧ gateClosed s.accepted e = true ↔ h.client = .trading ∧ PastGate s e :=
      and_congr_right fun _ => gateClosed_accepted e
    have hopen := fun ho hg => ownAmend_open hr he (client := h.client) ho (mt hgate.mp hg)
    rw [amendedBy_eq, accepted_mode] at hopen
    rw [Refuses, Refuses, Refuses, exec_amend h a hg]
    refine ⟨fun ho => ?_, fun ho hclosed => ?_, fun ho hn hlarger => ?_, fun ho hn hfits hpower => ?_,
      fun ho hn hpower hsame => ?_, fun ho hn hpower hdiffers => ?_⟩
    · rw [ownAmend_wrongState hr he ho]
    · rw [ownAmend_gateClosed hr he ho (hgate.mpr hclosed)]
    · rw [hopen ho hn, if_pos hlarger]
    · obtain ⟨hproj, hport, htouches⟩ := handCandidate_accepted ⟨{ e with power := amendPower a e }, true⟩
        (.amend h.client e.id (amendPower a e) (namedFields a).price (namedFields a).reference) s
      refine ⟨_, _, congrArg _ ((hopen ho hn).trans ((if_neg hfits).trans (if_pos hpower))), hproj, ?_, hport, htouches⟩
      simp only [namedFields, amendPrice, amendReference]
      split <;> split <;> rfl
    all_goals
      have hfits : ¬ (amendPower a e > e.power ∧ s.mode ≠ .normal) := fun h => absurd hpower h.1.ne'
    · rw [hopen ho hn, if_neg hfits, if_neg (not_not_intro hpower), if_pos hsame]
    · rw [hopen ho hn, if_neg hfits, if_neg (not_not_intro hpower), if_neg hdiffers]

end

section
/-! SUPPORT. O24 and O26: the completion of a trial walk, by the request whose candidate it judged (R52, R55, R93). -/

namespace Sys2Proof.Machine

set_option Elab.async false

/-! ### The judgement (R93) -/

section
variable {s : State} {c : Candidate} {included : List Entry} {w : WalkInputs}

theorem exec_trialWalkComplete_running (hs : inReset s = false) (ht : s.proj.trial = .running c included)
    (hw : s.proj.walkBasis = some w) : exec .trialWalkComplete s = .next (judgeTrial c included w s) := by
  have hjudged : trialCompletes s = judgeTrial c included w s := by simp only [trialCompletes, ht, hw]
  exact congrArg Host.Outcome.next ((unlessHeld_taken s _ hs).trans hjudged)

/-- R93: a failing row refuses the request in flight. -/
theorem judgeTrial_refuses {r : Risk} {f : InFlight} (hj : trialJudgement w s.proj.rows c included = some r)
    (hf : s.port.inFlight = some f) : judgeTrial c included w s =
      answer f.code .refusedInfeasible (packedVerdict r.verdict false ++ u32 r.interval) (endTrial s) := by
  have hflight : (endTrial s).port.inFlight = some f := hf
  simp only [judgeTrial, hj, refuseInfeasible, answerInFlight, hflight]

theorem judgeTrial_accepts (hj : trialJudgement w s.proj.rows c included = none) :
    judgeTrial c included w s = completeAccepted c (endTrial s) := by simp only [judgeTrial, hj]

theorem completeAccepted_admit (hf : s.port.inFlight = some .admitEntry) :
    completeAccepted c s = completeAdmit c.entry s := by simp only [completeAccepted, hf]

theorem completeAccepted_amend {client : Client} {id power : Nat} {price : Option Int} {reference : Option Nat}
    (hf : s.port.inFlight = some (.amend client id power price reference)) :
    completeAccepted c s = completeAmend client id ⟨some power, price, reference⟩ s := by simp only [completeAccepted, hf]

theorem gateClosed_endTrial (e : Entry) : gateClosed (endTrial s) e = true ↔ PastGate s e := decide_eq_true_iff

end

/-! ### A basis change with no trial in hand (R77, R78) -/

section
variable {s : State} (ht : s.proj.trial = .none)
include ht

theorem basisChange_trialOver : (basisChange s).proj.trial = .none ∧ (basisChange s).proj.restarts = s.proj.restarts := by
  rw [basisChange_noTrial s ht]
  split
  · exact ⟨ht, rfl⟩
  · exact ⟨ht, rfl⟩

theorem basisChange_startsWalk (h : s.proj.state ≠ .unavailable) : basisChange s = startWalk s := by
  rw [basisChange_noTrial s ht, if_neg fun hn => h hn.1]

end

/-! ### An ADMIT completes (R52) -/

section
variable {s : State} {e : Entry}

/-- R49, R50: the record an accepted candidate becomes. -/
def storedAs (s : State) (e : Entry) : Entry := { e with id := takeId s, seq := takeSeq s }

theorem takeSeq_next (h : s.table.lastSeq < 4294967295) : takeSeq s = s.table.lastSeq + 1 := if_pos h

theorem completeAdmit_gateClosed (h : gateClosed s e = true) : completeAdmit e s = answer 0x20 .gateClosed [] s := if_pos h

theorem completeAdmit_stored (h : ¬ gateClosed s e = true) : completeAdmit e s =
    answer 0x20 .ok (u16 (takeId s) ++ u32 (takeSeq s) ++ u8 e.status.code)
      (basisChange (storeEntry (storedAs s e) s)) := if_neg h

theorem storeEntry_table : (storeEntry e s).table =
    { entries := insertEntry e s.table.entries, nextId := idAfter e.id, lastSeq := e.seq } := rfl

theorem completeAdmit_table (h : ¬ gateClosed s e = true) : (completeAdmit e s).table =
    { entries := insertEntry (storedAs s e) s.table.entries, nextId := idAfter (takeId s), lastSeq := takeSeq s } := by
  rw [completeAdmit_stored h]
  exact (basisChange_touches _).get .table

/-- R52: an admission hands on a basis change, and leaves no trial in hand. -/
theorem completeAdmit_engine (h : ¬ gateClosed s e = true) (ht : s.proj.trial = .none) :
    (completeAdmit e s).proj.trial = .none ∧ (completeAdmit e s).proj.restarts = s.proj.restarts
      ∧ (s.proj.state ≠ .unavailable → (completeAdmit e s).proj.state = .stale
        ∧ (completeAdmit e s).proj.walk = some (walkInputs (completeAdmit e s))) := by
  rw [completeAdmit_stored h]
  obtain ⟨hover, hrestarts⟩ := basisChange_trialOver (s := storeEntry (storedAs s e) s) ht
  refine ⟨hover, hrestarts, fun hs => ?_⟩
  rw [basisChange_startsWalk (s := storeEntry (storedAs s e) s) ht hs]
  exact ⟨rfl, rfl⟩

end

/-! ### An AMEND completes (R55) -/

section
variable {s : State} {client : Client} {id : Nat} {m : Amendment} {e : Entry} (he : findEntry s id = some e)
include he

theorem completeAmend_wrongState (ho : e.status.isOpen = false) :
    completeAmend client id m s = answer 0x21 .wrongState [] s := by
  simp only [completeAmend, he]; exact if_pos (by simp [ho])

theorem completeAmend_gateClosed (ho : e.status.isOpen = true) (hg : client = .trading ∧ gateClosed s e = true) :
    completeAmend client id m s = answer 0x21 .gateClosed [] s := by
  simp only [completeAmend, he]; exact (if_neg (by simp [ho])).trans (if_pos hg)

theorem completeAmend_amended (ho : e.status.isOpen = true) (hg : ¬ (client = .trading ∧ gateClosed s e = true)) :
    completeAmend client id m s = answer 0x21 .ok (amendBytes { amended e m with status := .admitted })
      (basisChange (recoverIf e.status (putEntry { amended e m with status := .admitted } s))) := by
  simp only [completeAmend, he]; exact (if_neg (by simp [ho])).trans (if_neg hg)

end

end Sys2Proof.Machine
end

section
open Sys2Proof Sys2Proof.Machine

set_option Elab.async false

/-- Settles O24: the trial is over, and the judgement and then the gate decide; a stored candidate is stored under the next id and seq. -/
theorem trialWalkSettlesAdmit : Obligations.TrialWalkSettlesAdmit := by
  intro s c included w hs ht hw hf
  rw [exec_trialWalkComplete_running hs ht hw]
  have haccepted : trialJudgement w s.proj.rows c included = none →
      judgeTrial c included w s = completeAdmit c.entry (endTrial s) := fun hj =>
    (judgeTrial_accepts hj).trans (completeAccepted_admit hf)
  refine ⟨fun r hj => ?_, fun hj hg => ?_, fun hj hg => ?_⟩
  · rw [judgeTrial_refuses hj hf]
    rfl
  · rw [haccepted hj, completeAdmit_gateClosed ((gateClosed_endTrial _).mpr hg)]
  · have hopen := mt (gateClosed_endTrial c.entry).mp hg
    obtain ⟨hover, hrestarts, hwalk⟩ := completeAdmit_engine hopen rfl
    have htouches : Touches [.table, .proj, .port, .freeCount] s (completeAdmit c.entry (endTrial s)) :=
      (endTrial_touches s).comp (completeAdmit_touches _ _)
    refine ⟨_, takeSeq s, congrArg _ (haccepted hj), takeSeq_next, completeAdmit_table hopen, hover, hrestarts, hwalk, ?_,
      htouches⟩
    rw [completeAdmit_stored hopen]
    exact ⟨rfl, rfl⟩

/-- Settles O26: the trial is over, and the judgement, the entry's status and the gate decide. -/
theorem trialWalkSettlesAmend : Obligations.TrialWalkSettlesAmend := by
  intro s c included w client id power price reference hs ht hw hf
  rw [exec_trialWalkComplete_running hs ht hw]
  refine ⟨fun r hj => ?_, fun e hj hfound => ?_⟩
  · rw [judgeTrial_refuses hj hf]
    rfl
  · have he : findEntry (endTrial s) id = some e := hfound
    have hgate : client = .trading ∧ gateClosed (endTrial s) e = true ↔ client = .trading ∧ PastGate s e :=
      and_congr_right fun _ => gateClosed_endTrial e
    rw [judgeTrial_accepts hj, completeAccepted_amend (s := endTrial s) hf]
    refine ⟨fun ho => ?_, fun ho hc hg => ?_, fun ho hn => ?_⟩
    · rw [completeAmend_wrongState he ho]
    · rw [completeAmend_gateClosed he ho (hgate.mpr ⟨hc, hg⟩)]
    · rw [completeAmend_amended he ho (mt hgate.mp hn)]
      rfl

end

section
/-! SUPPORT. Laws of the table, the engine and the port. Of a law that reads nothing of the plant, and that notices, basis changes and a new
mask keep, it is said here once which operations keep it: all those of the sequencer, the dispatcher, the receiver, the modes and the
account (R77, R101 to R119, R135 to R163, R168, R176). -/

namespace Sys2Proof.Machine

set_option Elab.async false

/-- The fields of the plant, its rulers and the queues: every field but the table, the engine and the port. -/
abbrev plantFields : List Field :=
  [.account, .heat, .trains, .clock, .dispatch, .orders, .mode, .limits, .locked, .supervision, .por, .due, .freeCount, .pending]

/-- P reads the table, the engine and the port alone; a notice, a basis change and a new mask keep it. -/
structure Apart (P : State → Prop) : Prop where
  ignores : Ignores P plantFields
  raise : ∀ n, Kept P (raise n)
  basisChangeAt : ∀ n, Kept P (basisChangeAt n)
  mask : ∀ m, Kept P fun s => s.withPort { s.port with mask := m }

namespace Apart

section
variable {P : State → Prop} (hP : Apart P)
include hP

/-- What touches the plant alone keeps the law. -/
theorem touches {fs : List Field} {s t : State} (hs : P s) (h : Touches fs s t) (hfs : fs ⊆ plantFields := by decide) : P t :=
  hP.ignores (h.mono hfs) hs

theorem basisChange : Kept P basisChange := fun s hs => hP.basisChangeAt s.clock.n s hs

theorem closeBasisChange : Kept P closeBasisChange := fun s hs => hP.basisChangeAt _ s hs

omit hP in
theorem eachTrain {f : TrainIx → State → State} (hf : ∀ x, Kept P (f x)) (xs : List TrainIx) : Kept P (eachTrain f xs) :=
  fun s hs => Kept.foldl (fun u x => f x u) hf xs s hs

omit hP in
theorem eachDir {f : Dir → State → State} (hf : ∀ d, Kept P (f d)) : Kept P (eachDir f) :=
  fun s hs => hf .down _ (hf .up s hs)

/-! ### The train sequencer (R101 to R119) -/

section
variable (x : TrainIx)

theorem putTrain (v : Train) : Kept P (putTrain x v) := by
  intro s hs
  have hset : P (s.setTrain x (classed s.limits x v)) := hP.touches hs (setTrain_touches s _ _)
  unfold Machine.putTrain; dsimp only
  split
  · exact hset
  · exact hP.basisChange _ hset

theorem enterReady : Kept P (enterReady x) := fun s hs => hP.raise _ _ (hP.putTrain x _ s hs)

theorem stopFrom (v : Train) : Kept P (stopFrom x v) := fun s hs =>
  hP.putTrain x _ _ (hP.touches hs (releaseStore_touches s x))

theorem enterStopping : Kept P (enterStopping x) := fun s hs => hP.stopFrom x _ s hs

theorem enterCooldown : Kept P (enterCooldown x) := fun s hs => hP.raise _ _ (hP.putTrain x _ s hs)

theorem enterIdle : Kept P (enterIdle x) := fun s hs => hP.raise _ _ (hP.putTrain x _ s hs)

theorem expire : Kept P (expire x) := by
  intro s hs
  unfold Machine.expire; split
  · exact hP.enterReady x s hs
  · exact hP.enterStopping x s hs
  · exact hP.enterCooldown x s hs
  · exact hP.enterIdle x s hs
  all_goals exact hP.touches hs (setTrain_touches s _ _)

theorem requestStart : Kept P (requestStart x) := by
  intro s hs
  unfold Machine.requestStart; dsimp only
  split
  · exact hs
  · split
    · split
      · exact hs
      · exact hP.raise _ _ (hP.touches hs (setTrain_touches s _ _))
    · exact hP.putTrain x _ s hs

theorem requestLoad : Kept P (requestLoad x) := by
  intro s hs
  unfold Machine.requestLoad; split
  · exact hP.raise _ _ (hP.touches (hP.putTrain x _ s hs) (assignStore_touches _ x))
  · exact hs

theorem requestUnload : Kept P (requestUnload x) := by
  intro s hs
  unfold Machine.requestUnload; split
  · exact hP.raise _ _ (hP.putTrain x _ _ (hP.touches hs (releaseStore_touches s x)))
  · exact hs

theorem requestStop : Kept P (requestStop x) := fun _ hs => kept_ite (hP.enterStopping x) hs

theorem safeStop : Kept P (safeStop x) := fun _ hs => kept_ite (hP.enterStopping x) hs

/-- R110: a trip takes the train off its store, and is a basis change. -/
theorem countTrip : Kept P (countTrip x) := fun s hs =>
  hP.basisChange _ (hP.raise _ _ (hP.touches hs
    (Touches.comp (gs := [.heat, .trains]) (releaseStore_touches s x) (putTrainCovered_touches _ x _))))

theorem tripAssert : Kept P (tripAssert x) := by
  intro s hs
  have hline : P (s.setTrain x { s.train x with tripLine := true }) := hP.touches hs (setTrain_touches s _ _)
  unfold Machine.tripAssert; dsimp only
  split
  · exact hs
  · split
    · exact hline
    · exact hline
    all_goals exact hP.countTrip x _ hline

theorem countTimer : Kept P (countTimer x) := by
  intro s hs
  unfold Machine.countTimer; dsimp only
  split
  · exact hs
  · split
    · exact hP.expire x s hs
    · exact hP.touches hs (setTrain_touches s _ _)

theorem trainSecond : Kept P (trainSecond x) := fun s hs => hP.putTrain x _ _ (hP.countTimer x s hs)

theorem stopOrUnload : Kept P (stopOrUnload x) := by
  intro s hs
  have hstop := hP.requestStop x s hs
  have hunload := hP.requestUnload x _ hstop
  unfold Machine.stopOrUnload; dsimp only
  split
  · exact hstop
  · split
    · exact hP.touches hunload (setHold_touches _ x true)
    · exact hunload

theorem releaseTrain : Kept P (releaseTrain x) := by
  intro s hs
  unfold Machine.releaseTrain; dsimp only
  split
  · split
    · exact hs
    · exact hP.stopOrUnload x s hs
  · split
    · exact hs
    · exact hP.requestStop x s hs
  all_goals exact hs

theorem startOrLoad : Kept P (startOrLoad x) := by
  intro s hs
  unfold Machine.startOrLoad; split
  · exact kept_ite (hP.requestStart x) hs
  · exact kept_ite (hP.requestLoad x) hs
  all_goals exact hs

end

theorem trainsSecond : Kept P trainsSecond := fun s hs =>
  hP.touches (eachTrain hP.trainSecond TrainIx.all s hs) (touches_withTrains _ _)

/-! ### The dispatcher (R135, R141) -/

theorem lookAhead : Kept P lookAhead := by
  intro s hs
  have hahead : P ((rowsAhead s).foldl aheadOfRow (s, [])).1 :=
    List.foldlRecOn (motive := fun w : State × List TrainIx => P w.1) _ _ hs fun w hw r _ =>
      eachTrain (fun x _ hu => kept_ite (hP.requestStart x) hu) _ w.1 hw
  unfold Machine.lookAhead; split
  · exact hP.touches hahead (touches_withDispatch _ _)
  · exact hP.touches hs (touches_withDispatch _ _)

theorem dispatchTrains : Kept P dispatchTrains := fun s hs => by
  have hformed := hP.touches hs (formCommit_touches s)
  have hreleased : P (releaseUnwanted (formCommit s)) :=
    hP.touches (eachTrain hP.releaseTrain TrainIx.all _ hformed) (clearHolds_touches _)
  have hahead := hP.lookAhead _ (eachTrain hP.startOrLoad (releaseUnwanted (formCommit s)).dispatch.commit _ hreleased)
  exact eachTrain (fun x _ hu => hP.touches hu (rampTrain_touches _ x)) TrainIx.all _
    (hP.touches hahead (computeShares_touches _ (runningMembers (formCommit s))))

theorem dispatchSecond : Kept P dispatchSecond := fun s hs => by
  rw [dispatchSecond_eq]
  exact hP.touches (hP.dispatchTrains _ (hP.touches hs (formTarget_touches s))) (meterSecond_touches _)

/-! ### The receiver (R149 to R162) -/

section
variable (d : Dir)

theorem releaseAct (why : ReleaseReason) : Kept P (releaseAct d why) := by
  intro s hs
  have hset := hP.touches hs (setAct_touches s d ((s.act d).releasedBy why))
  obtain h | h := releaseAct_eq d why s <;> rw [h]
  · exact hset
  · exact hP.raise _ _ hset

theorem actSecond : Kept P (actSecond d) := by
  intro s hs
  unfold Machine.actSecond; dsimp only
  split
  · exact hs
  · split
    · exact hP.releaseAct d _ s hs
    · exact hP.touches hs (setAct_touches s _ _)
  · split
    · split
      · exact hP.releaseAct d _ s hs
      · exact hP.touches hs (setAct_touches s _ _)
    · exact hs

theorem closeAct (n : Nat) : Kept P (closeAct n d) := by
  intro s hs
  unfold Machine.closeAct; dsimp only
  split
  · exact hs
  · exact kept_ite (hP.raise _) (hP.touches hs (setAct_touches s _ _))

theorem moveOwn (p : Fin 8) (level : Nat) : Kept P (moveOwn d p level) := by
  intro s hs
  unfold Machine.moveOwn; dsimp only
  split
  · split
    · exact hP.touches hs (setAct_touches s _ _)
    · exact hP.raise _ _ (hP.touches hs (setAct_touches s _ _))
  · exact hP.raise _ _ (hP.touches hs (setAct_touches s _ _))
  · exact hP.touches hs (setAct_touches s _ _)

theorem activate (p : Fin 8) (level : Nat) : Kept P (activate d p level) := by
  intro s hs
  unfold Machine.activate; split
  · exact hP.releaseAct d _ s hs
  · split
    · exact hP.raise _ s hs
    · exact hP.moveOwn d p level _ (hP.releaseAct _ _ s hs)

end

theorem releaseBoth (why : ReleaseReason) : Kept P (releaseBoth why) := fun s hs =>
  hP.releaseAct .down why _ (hP.releaseAct .up why s hs)

theorem ordersSecond : Kept P ordersSecond := eachDir hP.actSecond

theorem ordersBoundary (m n : Nat) : Kept P (ordersBoundary m n) := fun s hs =>
  eachDir (fun d => hP.closeAct d m) _ (eachDir (fun d _ hu => kept_ite (hP.releaseAct d _) hu) s hs)

theorem takeClosings (n : Nat) : Kept P (takeClosings n) := fun s hs =>
  eachDir (fun d => hP.closeAct d n) _ (hP.touches hs (dispatchClose_touches s n))

theorem carryOut (p : Fin 8) (level : Nat) : Kept P (carryOut p level) := by
  intro s hs
  unfold Machine.carryOut; split
  · exact hP.activate _ p level s hs
  · exact hP.activate _ p level s hs
  · exact hP.releaseAct _ _ s hs
  · exact hP.releaseAct _ _ s hs
  · exact hP.releaseBoth _ s hs

theorem takeTelegram (a b : Byte) (level : Nat) : Kept P (takeTelegram a b level) := by
  intro s hs
  have hreceived := hP.touches hs (touches_withOrders s { s.orders with received := countUp s.orders.received })
  unfold Machine.takeTelegram; dsimp only
  split
  · exact eachDir (fun d _ hu => kept_ite (hP.releaseAct d _) hu) _ (hP.touches hreceived (touches_withOrders _ _))
  · exact hP.carryOut _ level _ (eachDir (fun d _ hu => kept_ite (hP.releaseAct d _) hu) _
      (eachDir (fun d _ hu => kept_ite (hP.releaseAct d _) hu) _
        (eachDir (fun d _ hu => kept_ite (hP.releaseAct d _) hu) _ hreceived)))

theorem takeOrderByte (v : Byte) (f : Bool) : Kept P (takeOrderByte v f) := by
  intro s hs
  have hset : ∀ a, P (s.setAssembler a) := fun a => hP.touches hs (setAssembler_touches s a)
  have hdiscard : P (discardTelegram s) := hP.touches hs (discardTelegram_touches s)
  unfold Machine.takeOrderByte; split
  · split
    · exact hset _
    · exact hs
  · split
    · exact hdiscard
    · split
      · unfold checkTelegram; split
        · exact hP.takeTelegram _ _ _ _ (hset _)
        · exact hdiscard
      · exact hset _

/-! ### Account and modes (R16 to R18, R117, R168, R176) -/

theorem accountClose : Kept P accountClose := by
  intro s hs
  cases h : s.account.basis with
  | unbased => rw [accountClose_unbased h]; exact hP.touches hs (touches_withAccount s _)
  | based =>
    rw [accountClose_taken h]
    exact hP.closeBasisChange _ (kept_ite (hP.raise _) (hP.touches hs (touches_withAccount s _)))

theorem enteredSafe : Kept P enteredSafe := fun s hs =>
  hP.mask _ _ (hP.releaseBoth _ _ (eachTrain hP.safeStop TrainIx.all s hs))

theorem changeMode (m : Mode) : Kept P (changeMode m) := by
  intro s hs
  have hr := hP.raise .mode _ (hP.touches hs (touches_withMode s m))
  unfold Machine.changeMode; dsimp only
  split
  · exact hP.enteredSafe _ hr
  · exact hP.touches hr (reloadTimer_touches _)
  · exact hP.touches hr (reloadTimer_touches _)
  · exact hr

theorem supervisionFailure : Kept P supervisionFailure := by
  intro s hs
  have hc : P (countFailure s) := hP.touches hs (touches_withSupervision s _)
  unfold Machine.supervisionFailure; dsimp only
  split
  · exact hP.changeMode _ _ hc
  · exact hP.changeMode _ _ hc
  · exact hP.changeMode _ _ hc
  · exact hc
  · exact hc

theorem countSupervision : Kept P countSupervision := fun s hs =>
  kept_ite hP.supervisionFailure (hP.touches hs (touches_withSupervision s _))

/-! ### The responses and the events (R69, R90, R128, R129) -/

/-- Of the responses, the table's at a boundary alone writes the table. -/
theorem respondDue (ht : ∀ m n, Kept P (tableBoundary m n)) (d : Due) : Kept P (respondDue d) := by
  have hframe : partFields d.part ⊆ plantFields → Kept P (Machine.respondDue d) := fun h s hs =>
    hP.touches hs (respondDue_frame d s) h
  cases d with
  | second p =>
    cases p with
    | trainsSecond => exact hP.trainsSecond
    | dispatchSecond => exact hP.dispatchSecond
    | ordersSecond => exact hP.ordersSecond
    | supervisionSecond => exact fun _ hs => kept_ite hP.countSupervision hs
    | accountClose | tableBoundary | ordersBoundary | projectionBoundary => exact fun _ hs => hs
    | _ => exact hframe (by simp [Due.part, partFields])
  | boundary b p =>
    cases p with
    | accountClose => exact hP.accountClose
    | tableBoundary => exact ht _ _
    | ordersBoundary => exact hP.ordersBoundary _ _
    | projectionBoundary => exact hP.basisChange
    | trainsSecond | dispatchSecond | ordersSecond | supervisionSecond => exact fun _ hs => hs
    | _ => exact hframe (by simp [Due.part, partFields])

section
variable (hr : ∀ d, Kept P (Machine.respondDue d))
include hr

theorem settle (b : Bool) : Kept P (settle b) := fun s hs =>
  respondAll_kept hr _ _ (hP.touches hs (touches_withDue s _))

theorem respondOrPutOff (later : List Part) (ds : List Due) : Kept P (respondOrPutOff later ds) := fun s hs =>
  respondAll_kept hr _ _ (hP.touches hs (touches_withDue s _))

theorem boundaryNow (how : Schedule) : Kept P (boundaryNow how) := fun s hs =>
  hP.respondOrPutOff hr _ _ _ (hP.touches (hP.settle hr true s hs) (endInterval_touches _))

theorem secondNow (how : Schedule) : Kept P (secondNow how) := fun s hs =>
  have hsettled : P (settleForSecond s) := kept_ite (hP.settle hr true) (hP.settle hr false s hs)
  hP.respondOrPutOff hr _ _ _ (hP.touches (hP.respondOrPutOff hr _ _ _ hsettled) (clockSecond_touches _))

theorem pulseNow (how : Schedule) : Kept P (pulseNow how) := by
  intro s hs
  have hk : P (keepCapture s) := hP.touches hs (keepCapture_touches s)
  unfold Machine.pulseNow; split
  · exact hP.boundaryNow hr how _ hk
  · exact hP.touches hk (restartCount_touches _)
  · exact hP.raise _ _ hk

theorem respondNext : Kept P respondNext := by
  intro s hs
  unfold Machine.respondNext; split
  · exact hs
  · exact hr _ _ (hP.touches hs (touches_withDue s _))

/-- R69, R77 to R79: CLOCK_SET makes what is due to an earlier boundary, sets the clock, and is a basis change. -/
theorem setClock (n d c : Nat) : Kept P (setClock n d c) := fun s hs =>
  hP.basisChange _ (eachDir (fun d _ hu => hP.touches hu (setActClosing_touches _ _ d)) _
    (hP.touches (hP.touches (hP.settle hr true s hs) (touches_withClock _ _)) (touches_withDispatch _ _)))

end

end

end Apart

end Sys2Proof.Machine
end

section
/-! SUPPORT. O57: what keeps the laws of the table. Of the commands only an ADMIT asks for a slot, and only a trial walk that completes for
one takes it; whatever else happens, the table loses records at most. -/

namespace Sys2Proof.Machine

set_option Elab.async false

/-! ### The index after an admission (R47, R52) -/

section
variable {e : Entry} {es : List Entry}

theorem insertEntry_perm (e : Entry) : ∀ es, (insertEntry e es).Perm (e :: es)
  | [] => .refl _
  | x :: xs => by
    unfold insertEntry; split
    · exact .refl _
    · exact ((insertEntry_perm e xs).cons x).trans (.swap e x xs)

theorem mem_insertEntry {x : Entry} : x ∈ insertEntry e es ↔ x = e ∨ x ∈ es :=
  (insertEntry_perm e es).mem_iff.trans List.mem_cons

theorem keyBefore_iff (a b : Entry) : keyBefore a b = true ↔ a.first < b.first ∨ a.first = b.first ∧ a.seq < b.seq := by
  simp [keyBefore]

/-- R47: an entry younger than every record goes behind those of its interval, and the index stays in order. -/
theorem insertEntry_pairwise (h : es.Pairwise fun a b => keyBefore a b = true) (hyoung : ∀ x ∈ es, x.seq < e.seq) :
    (insertEntry e es).Pairwise fun a b => keyBefore a b = true := by
  simp only [keyBefore_iff] at h ⊢
  induction es with
  | nil => exact List.pairwise_singleton _ e
  | cons x xs ih =>
    obtain ⟨hx, hxs⟩ := List.pairwise_cons.mp h
    have hxe := hyoung x List.mem_cons_self
    unfold insertEntry; split
    next hb =>
      have hb := (keyBefore_iff e x).mp hb
      refine List.pairwise_cons.mpr ⟨fun y hy => ?_, h⟩
      rcases List.mem_cons.mp hy with rfl | hy
      · exact hb
      · have := hx y hy; omega
    next hb =>
      have hb := mt (keyBefore_iff e x).mpr hb
      refine List.pairwise_cons.mpr ⟨fun y hy => ?_, ih (fun y hy => hyoung y (List.mem_cons_of_mem x hy)) hxs⟩
      rcases mem_insertEntry.mp hy with rfl | hy
      · omega
      · exact hx y hy

end

/-! ### Nothing is admitted -/

/-- What the laws of the table read of a record: id, first and seq. -/
def Entry.slot (e : Entry) : Nat × Nat × Nat := (e.id, e.first, e.seq)

/-- From s to t no record comes into the table or changes its id or its place, the counters stand, and no ADMIT comes into flight. -/
structure AdmitsNone (s t : State) : Prop where
  slots : (t.table.entries.map Entry.slot).Sublist (s.table.entries.map Entry.slot)
  nextId : t.table.nextId = s.table.nextId
  lastSeq : t.table.lastSeq = s.table.lastSeq
  inFlight : t.port.inFlight = some .admitEntry → s.port.inFlight = some .admitEntry

section
variable {s t u : State}

theorem AdmitsNone.trans (h : AdmitsNone s t) (k : AdmitsNone t u) : AdmitsNone s u where
  slots := k.slots.trans h.slots
  nextId := k.nextId.trans h.nextId
  lastSeq := k.lastSeq.trans h.lastSeq
  inFlight := fun hu => h.inFlight (k.inFlight hu)

theorem AdmitsNone.of_table (ht : t.table = s.table)
    (hf : t.port.inFlight = some .admitEntry → s.port.inFlight = some .admitEntry) : AdmitsNone s t :=
  ⟨by rw [ht], by rw [ht], by rw [ht], hf⟩

theorem AdmitsNone.refl (s : State) : AdmitsNone s s := .of_table rfl id

theorem AdmitsNone.of_touches {fs : List Field} (h : Touches fs s t)
    (hfs : .table ∉ fs ∧ .port ∉ fs := by decide) : AdmitsNone s t :=
  .of_table (h .table hfs.1) fun hf => by rwa [← h .port hfs.2]

/-- A reply ends what is in flight. -/
theorem AdmitsNone.answered (ht : t.table = s.table) (hf : t.port.inFlight = none) : AdmitsNone s t :=
  .of_table ht fun h => nomatch hf.symm.trans h

theorem raise_admitsNone (n : Notice) (s : State) : AdmitsNone s (raise n s) := .of_table rfl id

theorem answer_admitsNone (c : Byte) (r : Result) (p : List Byte) (s : State) : AdmitsNone s (answer c r p s) :=
  .answered rfl rfl

theorem answerInFlight_admitsNone (r : Result) (p : List Byte) (s : State) : AdmitsNone s (answerInFlight r p s) := by
  unfold answerInFlight; split
  · exact .refl s
  · exact answer_admitsNone _ _ _ s

theorem basisChangeAt_admitsNone (n : Nat) (s : State) : AdmitsNone s (basisChangeAt n s) := by
  have hwalk : AdmitsNone s (startWalkAt n s) := .of_touches (startWalkAt_touches s n)
  have hcount : ∀ u, AdmitsNone u (countRestart u) := fun u => by
    unfold countRestart; split
    · exact .refl u
    all_goals
      split
      · exact .of_touches (touches_withProj u _)
      · exact (AdmitsNone.of_touches (endTrial_touches u)).trans (answerInFlight_admitsNone _ _ _)
  unfold basisChangeAt; split
  · split
    · exact hwalk
    · exact .refl s
  all_goals exact hwalk.trans (hcount _)

theorem basisChange_admitsNone (s : State) : AdmitsNone s (basisChange s) := basisChangeAt_admitsNone _ s

theorem accepted_admitsNone (s : State) : AdmitsNone s s.accepted := .of_table (accepted_table s) (by rw [accepted_port]; exact id)

/-- The operations of the plant bring no record into the table. -/
theorem admitsNone_apart (s : State) : Apart (AdmitsNone s) where
  ignores := fun _ _ h hs => hs.trans (.of_touches h)
  raise := fun n u hu => hu.trans (raise_admitsNone n u)
  basisChangeAt := fun n u hu => hu.trans (basisChangeAt_admitsNone n u)
  mask := fun _ _ hu => hu.trans (.of_table rfl id)

/-! ### The operations on records -/

/-- Records rewritten under their ids, in their places. -/
theorem AdmitsNone.rewrite {f : Entry → Entry} (s : State) (hf : ∀ e ∈ s.table.entries, (f e).slot = e.slot) :
    AdmitsNone s (s.setEntries (s.table.entries.map f)) where
  slots := by
    have hmap : (s.table.entries.map f).map Entry.slot = s.table.entries.map Entry.slot :=
      List.map_map.trans (List.map_congr_left hf)
    exact hmap ▸ List.Sublist.refl _
  nextId := rfl
  lastSeq := rfl
  inFlight := id

theorem freeSlot_admitsNone (id : Nat) (s : State) : AdmitsNone s (freeSlot id s) where
  slots := List.filter_sublist.map _
  nextId := rfl
  lastSeq := rfl
  inFlight := fun h => h

/-- The record found under an id is written back with its id and its place. -/
theorem putEntry_admitsNone {e : Entry} (hs : (s.table.entries.map (·.id)).Nodup) {id : Nat}
    {e' : Entry} (he : findEntry s id = some e) (h : e'.slot = e.slot) : AdmitsNone s (putEntry e' s) := by
  have hid : e'.id = e.id := congrArg Prod.fst h
  refine .rewrite s fun x hx => ?_
  split
  next hxid => rw [h, List.inj_on_of_nodup_map hs hx (findEntry_mem he) (hxid.trans hid)]
  · rfl

theorem tableBoundary_table (m n : Nat) (s : State) : (tableBoundary m n s).table =
    { s.table with entries := s.table.entries.map fun e => openedAt n (closedAt m (credited (takeClosings m s) e)) } := by
  have htable : (takeClosings m s).table = s.table := (takeClosings_touches s m).get .table
  have hrest : (tableBoundary m n s).table =
      { (takeClosings m s).table with entries := (tableBoundary m n s).table.entries } := by
    unfold tableBoundary; dsimp only
    split <;> rfl
  rw [hrest, tableBoundary_entries, htable]

/-- R64 to R68: a boundary rewrites the records in their places. -/
theorem settled_slot (s : State) (m n : Nat) (e : Entry) : (openedAt n (closedAt m (credited s e))).slot = e.slot := by
  have hopened : ∀ x, (openedAt n x).slot = x.slot := fun x => by unfold openedAt; split <;> rfl
  have hclosed : ∀ x, (closedAt m x).slot = x.slot := fun x => by unfold closedAt; split <;> rfl
  have hcredited : (credited s e).slot = e.slot := by unfold credited; split <;> rfl
  rw [hopened, hclosed, hcredited]

theorem tableBoundary_admitsNone (m n : Nat) (s : State) : AdmitsNone s (tableBoundary m n s) := by
  have hmap : AdmitsNone s (s.setEntries (s.table.entries.map fun e => openedAt n (closedAt m (credited (takeClosings m s) e)))) :=
    .rewrite s fun e _ => settled_slot _ m n e
  have hflight : (tableBoundary m n s).port.inFlight = (takeClosings m s).port.inFlight := by
    unfold tableBoundary; dsimp only
    split <;> rfl
  refine hmap.trans (.of_table (tableBoundary_table m n s) fun hf => ?_)
  exact ((admitsNone_apart s).takeClosings m s (.refl s)).inFlight (hflight ▸ hf)

theorem judged_slot (o : Outcome) (e : Entry) : (judged o e).slot = e.slot := by
  unfold judged; split
  · split
    · rfl
    · split <;> rfl
  · rfl

theorem applyOutcome_admitsNone (o : Outcome) (s : State) : AdmitsNone s (applyOutcome o s) := by
  have hjudged : AdmitsNone s (s.setEntries (s.table.entries.map (judged o))) := .rewrite s fun e _ => judged_slot o e
  have hraise : ∀ {c : Bool} {n : Notice} {u : State}, AdmitsNone s u → AdmitsNone s (if c then raise n u else u) :=
    fun {c n u} hu => kept_ite (c := c = true) ((admitsNone_apart s).raise n) hu
  exact hraise (hraise hjudged)

/-- R89: a full walk that completes judges the records in their places. -/
theorem fullWalkCompletes_admitsNone (s : State) : AdmitsNone s (fullWalkCompletes s) := by
  unfold fullWalkCompletes; split
  · exact .refl s
  next w _ =>
    have hproj : AdmitsNone s (s.withProj (s.proj.completedWith w (fullWalk w))) := .of_touches (touches_withProj s _)
    exact ((hproj.trans (applyOutcome_admitsNone _ _)).trans (raise_admitsNone .projectionDone _)).trans
      (.of_touches (releaseTrial_touches _))

end

/-! ### The laws where nothing is admitted -/

/-- R47: the order of the index is the order of the slots. -/
theorem indexLaw_iff (s : State) : IndexLaw s ↔ (s.table.entries.map Entry.slot).Pairwise fun a b =>
    a.2.1 < b.2.1 ∨ a.2.1 = b.2.1 ∧ a.2.2 < b.2.2 := by
  simp only [IndexLaw, keyBefore_iff, List.pairwise_map, Entry.slot]

section
variable {s t : State} (h : AdmitsNone s t)
include h

theorem AdmitsNone.length_le : t.table.entries.length ≤ s.table.entries.length := by
  simpa only [List.length_map] using h.slots.length_le

/-- A record of t stands under its id and in its place in s. -/
theorem AdmitsNone.exists_slot {e : Entry} (he : e ∈ t.table.entries) : ∃ x ∈ s.table.entries, x.slot = e.slot :=
  List.mem_map.mp (h.slots.subset (List.mem_map_of_mem he))

theorem AdmitsNone.tableLaw (hs : TableLaw s) : TableLaw t := by
  obtain ⟨hsize, hids, hrange, hnext⟩ := hs
  refine ⟨h.length_le.trans hsize, ?_, fun e he => ?_, by rw [h.nextId]; exact hnext⟩
  · have hsub := h.slots.map Prod.fst
    simp only [List.map_map] at hsub
    exact hids.sublist hsub
  · obtain ⟨x, hx, heq⟩ := h.exists_slot he
    have hid : x.id = e.id := congrArg Prod.fst heq
    exact hid ▸ hrange x hx

theorem AdmitsNone.roomLaw (hs : RoomLaw s) : RoomLaw t := fun hf => h.length_le.trans (hs (h.inFlight hf))

theorem AdmitsNone.seqLaw (hs : SeqLaw s) : SeqLaw t := fun e he => by
  obtain ⟨x, hx, heq⟩ := h.exists_slot he
  have hseq : x.seq = e.seq := congrArg (·.2.2) heq
  rw [h.lastSeq, ← hseq]
  exact hs x hx

theorem AdmitsNone.indexLaw (hs : IndexLaw s) : IndexLaw t :=
  (indexLaw_iff t).mpr (((indexLaw_iff s).mp hs).sublist h.slots)

end

end Sys2Proof.Machine
end

section
/-! SUPPORT. O57: each command either admits nothing, or is an ADMIT that asks for a slot, a trial walk that takes it, or power-on reset. -/

namespace Sys2Proof.Machine

set_option Elab.async false

/-! ### The requests (R184, R188) -/

/-- The two requests whose reply may wait for a trial walk (R184). -/
def waitsForTrial : Instr → Bool
  | .admitEntry _ _ | .amend _ _ => true
  | _ => false

/-- R188: every other request is answered at once, on each branch of its owner, so it leaves none in flight. -/
theorem request_leaves_none_inFlight (c : Instr) (s : State) (hc : c.request? ≠ none) (hw : waitsForTrial c = false) :
    ∃ r h owner, exec c s = .next (takeRequest r h owner s) ∧ ∀ u, (owner u).port.inFlight = none := by
  cases c with
  | identify h => exact ⟨_, _, _, rfl, fun u => rfl⟩
  | notices h v => exact ⟨_, _, _, rfl, fun u => rfl⟩
  | noticeMaskSet h v => exact ⟨_, _, _, rfl, fun u => rfl⟩
  | noticeMaskClear h v => exact ⟨_, _, _, rfl, fun u => rfl⟩
  | restart h => exact ⟨_, _, _, rfl, fun u => rfl⟩
  | readAccount h => exact ⟨_, _, _, rfl, fun u => rfl⟩
  | findInterval h n f q => exact ⟨_, _, _, rfl, fun u => rfl⟩
  | findReference h n f q => exact ⟨_, _, _, rfl, fun u => rfl⟩
  | projectionState h => exact ⟨_, _, _, rfl, fun u => rfl⟩
  | orderState h => exact ⟨_, _, _, rfl, fun u => rfl⟩
  | clockRead h => exact ⟨_, _, _, rfl, fun u => rfl⟩
  | keepalive h => exact ⟨_, _, _, rfl, fun u => rfl⟩
  | postReading h r =>
    refine ⟨_, _, ownPostReading r, rfl, fun u => ?_⟩
    unfold ownPostReading; rfl
  | rebase h =>
    refine ⟨_, _, ownRebase, rfl, fun u => ?_⟩
    unfold ownRebase; repeat' split
    all_goals rfl
  | excursionClear h side =>
    refine ⟨_, _, (ownExcursionClear side), rfl, fun u => ?_⟩
    unfold ownExcursionClear; repeat' split
    all_goals rfl
  | storeService h i d =>
    refine ⟨_, _, (ownStoreService i d), rfl, fun u => ?_⟩
    unfold ownStoreService; repeat' split
    all_goals rfl
  | storeSet h i v =>
    refine ⟨_, _, (ownStoreSet i v), rfl, fun u => ?_⟩
    unfold ownStoreSet; repeat' split
    all_goals rfl
  | readStore h i =>
    refine ⟨_, _, (ownReadStore i), rfl, fun u => ?_⟩
    unfold ownReadStore; repeat' split
    all_goals rfl
  | withdraw h id =>
    refine ⟨_, _, (ownWithdraw h.client id), rfl, fun u => ?_⟩
    unfold ownWithdraw; repeat' split
    all_goals rfl
  | settle h id =>
    refine ⟨_, _, (ownSettle id), rfl, fun u => ?_⟩
    unfold ownSettle; repeat' split
    all_goals rfl
  | queryEntry h id =>
    refine ⟨_, _, (ownQueryEntry id), rfl, fun u => ?_⟩
    unfold ownQueryEntry; repeat' split
    all_goals rfl
  | readProjection h a b c d =>
    refine ⟨_, _, (ownReadProjection a b c d), rfl, fun u => ?_⟩
    unfold ownReadProjection; repeat' split
    all_goals rfl
  | readNext h =>
    refine ⟨_, _, ownReadNext, rfl, fun u => ?_⟩
    unfold ownReadNext; dsimp only; split
    all_goals rfl
  | trainService h i d =>
    refine ⟨_, _, (ownTrainService i d), rfl, fun u => ?_⟩
    unfold ownTrainService; repeat' split
    all_goals rfl
  | trainReset h i =>
    refine ⟨_, _, (ownTrainReset i), rfl, fun u => ?_⟩
    unfold ownTrainReset; repeat' split
    all_goals rfl
  | trainUnlock h i =>
    refine ⟨_, _, (ownTrainUnlock i), rfl, fun u => ?_⟩
    unfold ownTrainUnlock; repeat' split
    all_goals rfl
  | trainPriority h d l =>
    refine ⟨_, _, (ownTrainPriority d l), rfl, fun u => ?_⟩
    unfold ownTrainPriority; repeat' split
    all_goals rfl
  | heaterAssign h i v =>
    refine ⟨_, _, (ownHeaterAssign i v), rfl, fun u => ?_⟩
    unfold ownHeaterAssign; repeat' split
    all_goals rfl
  | heaterTimer h k p o =>
    refine ⟨_, _, (ownHeaterTimer k p o), rfl, fun u => ?_⟩
    unfold ownHeaterTimer; repeat' split
    all_goals rfl
  | readTrain h i =>
    refine ⟨_, _, (ownReadTrain i), rfl, fun u => ?_⟩
    unfold ownReadTrain; repeat' split
    all_goals rfl
  | patternWrite h a =>
    refine ⟨_, _, (ownPatternWrite a), rfl, fun u => ?_⟩
    unfold ownPatternWrite; repeat' split
    all_goals rfl
  | patternRead h i =>
    refine ⟨_, _, (ownPatternRead i), rfl, fun u => ?_⟩
    unfold ownPatternRead; repeat' split
    all_goals rfl
  | orderRelease h d =>
    refine ⟨_, _, (ownOrderRelease d), rfl, fun u => ?_⟩
    unfold ownOrderRelease; repeat' split
    all_goals rfl
  | clockSet h n d c =>
    refine ⟨_, _, (ownClockSet n d c), rfl, fun u => ?_⟩
    unfold ownClockSet; repeat' split
    all_goals rfl
  | paramWrite h i v =>
    refine ⟨_, _, (ownParamWrite i v), rfl, fun u => ?_⟩
    unfold ownParamWrite; repeat' split
    all_goals rfl
  | paramRead h i =>
    refine ⟨_, _, (ownParamRead i), rfl, fun u => ?_⟩
    unfold ownParamRead; repeat' split
    all_goals rfl
  | lockLimits h =>
    refine ⟨_, _, ownLockLimits, rfl, fun u => ?_⟩
    unfold ownLockLimits; repeat' split
    all_goals rfl
  | supervisionSet h a =>
    refine ⟨_, _, (ownSupervisionSet a), rfl, fun u => ?_⟩
    unfold ownSupervisionSet; repeat' split
    all_goals rfl
  | forceExpiry h =>
    refine ⟨_, _, ownForceExpiry, rfl, fun u => ?_⟩
    unfold ownForceExpiry; repeat' split
    all_goals rfl
  | resume h =>
    refine ⟨_, _, ownResume, rfl, fun u => ?_⟩
    unfold ownResume; repeat' split
    all_goals rfl
  | recover h =>
    refine ⟨_, _, ownRecover, rfl, fun u => ?_⟩
    unfold ownRecover; repeat' split
    all_goals rfl
  | enterHold h =>
    refine ⟨_, _, ownEnterHold, rfl, fun u => ?_⟩
    unfold ownEnterHold; repeat' split
    all_goals rfl
  | enterSafe h =>
    refine ⟨_, _, ownEnterSafe, rfl, fun u => ?_⟩
    unfold ownEnterSafe; repeat' split
    all_goals rfl
  | admitEntry h a => exact absurd hw nofun
  | amend h a => exact absurd hw nofun
  | _ => exact absurd rfl hc

section
variable {s t : State}

theorem takeRequest_admitsNone {r : Request} {h : Head} {owner : State → State}
    (ho : AdmitsNone s.accepted (owner s.accepted)) : AdmitsNone s (takeRequest r h owner s) := by
  have hr : ∀ c q p, AdmitsNone s (answer c q p s.accepted) := fun c q p =>
    (accepted_admitsNone s).trans (answer_admitsNone c q p _)
  obtain ⟨-, h⟩ | ⟨-, -, h⟩ | ⟨-, -, -, h⟩ | ⟨-, -, -, -, h⟩ | ⟨-, -, -, -, h⟩ := takeRequest_cases s r h owner <;> rw [h]
  · exact .refl s
  · exact .of_table rfl id
  · exact hr _ _ _
  · exact hr _ _ _
  · exact (accepted_admitsNone s).trans ho

/-! ### The requests that write records (R54, R57, R58, R60) -/

/-- The ids are distinct. -/
abbrev IdsDistinct (s : State) : Prop := (s.table.entries.map (·.id)).Nodup

theorem ownWithdraw_admitsNone (hs : IdsDistinct s) (k : Client) (id : Half) : AdmitsNone s (ownWithdraw k id s) := by
  unfold ownWithdraw; split
  · exact answer_admitsNone _ _ _ s
  next e he =>
    split
    · split
      · exact answer_admitsNone _ _ _ s
      · exact ((freeSlot_admitsNone _ s).trans (basisChange_admitsNone _)).trans (answer_admitsNone _ _ _ _)
    · split
      · exact (((putEntry_admitsNone (e' := curtailed e) hs he rfl).trans (raise_admitsNone .entryClosed _)).trans
          (basisChange_admitsNone _)).trans (answer_admitsNone _ _ _ _)
      · exact answer_admitsNone _ _ _ s

theorem ownSettle_admitsNone (id : Half) (s : State) : AdmitsNone s (ownSettle id s) := by
  unfold ownSettle; split
  · exact answer_admitsNone _ _ _ s
  · split
    · exact (freeSlot_admitsNone _ s).trans (answer_admitsNone _ _ _ _)
    · exact answer_admitsNone _ _ _ s

/-- R91: an AMEND in flight is no ADMIT. -/
theorem handCandidate_amend_admitsNone (c : Candidate) (k : Client) (id power : Nat) (p : Option Int) (r : Option Nat)
    (s : State) : AdmitsNone s (handCandidate c (.amend k id power p r) s) := .of_table rfl nofun

theorem ownAmend_admitsNone (hs : IdsDistinct s) (k : Client) (a : AmendArgs) : AdmitsNone s (ownAmend k a s) := by
  have hr : ∀ c r p, AdmitsNone s (answer c r p s) := fun c r p => answer_admitsNone c r p s
  unfold ownAmend; split
  · exact hr _ _ _
  next m _ =>
    split
    · exact hr _ _ _
    next e he =>
      dsimp only
      split
      · exact hr _ _ _
      · split
        · exact hr _ _ _
        · split
          · exact hr _ _ _
          · split
            · exact handCandidate_amend_admitsNone _ _ _ _ _ _ s
            · split
              · exact hr _ _ _
              · exact ((putEntry_admitsNone (e' := amended e m) hs he rfl).trans (basisChange_admitsNone _)).trans (answer_admitsNone _ _ _ _)

/-- A request whose owner leaves none in flight brings none there. -/
theorem takeRequest_inFlight {r : Request} {h : Head} {owner : State → State} (ho : ∀ u, (owner u).port.inFlight = none)
    {f : InFlight} (hf : (takeRequest r h owner s).port.inFlight = some f) : s.port.inFlight = some f := by
  obtain ⟨-, h⟩ | ⟨-, -, h⟩ | ⟨-, -, -, h⟩ | ⟨-, -, -, -, h⟩ | ⟨-, -, -, -, h⟩ := takeRequest_cases s r h owner <;> rw [h] at hf
  · exact hf
  · exact hf
  · cases hf
  · cases hf
  · cases (ho _).symm.trans hf

/-- Each response admits nothing. -/
theorem respondDue_admitsNone (s : State) (d : Due) : Kept (AdmitsNone s) (respondDue d) :=
  (admitsNone_apart s).respondDue (fun m n u hu => hu.trans (tableBoundary_admitsNone m n u)) d

theorem ownClockSet_admitsNone (n : Word) (d c : Half) (s : State) : AdmitsNone s (ownClockSet n d c s) := by
  unfold ownClockSet; dsimp only
  split
  · exact answer_admitsNone _ _ _ s
  · split
    · exact answer_admitsNone _ _ _ s
    · exact ((admitsNone_apart s).setClock (respondDue_admitsNone s) _ _ _ s (.refl s)).trans (answer_admitsNone _ _ _ _)

/-- No request but an ADMIT admits anything. -/
theorem request_admitsNone (hs : IdsDistinct s) (c : Instr) (hc : c.request? ≠ none) (ha : ∀ h a, c ≠ .admitEntry h a)
    (h : exec c s = .next t) : AdmitsNone s t := by
  have hs' : IdsDistinct s.accepted := by rwa [IdsDistinct, accepted_table]
  have hframe : .table ∉ c.fields → waitsForTrial c = false → AdmitsNone s t := fun hf hw => by
    obtain ⟨r, hd, owner, hexec, hnone⟩ := request_leaves_none_inFlight c s hc hw
    obtain ⟨t', ht, htouch⟩ := exec_frame c s
    obtain rfl := Host.Outcome.next.inj (h.symm.trans ht)
    obtain rfl := Host.Outcome.next.inj (h.symm.trans hexec)
    exact .of_table (htouch .table hf) (takeRequest_inFlight hnone)
  cases c with
  | admitEntry hd a => exact absurd rfl (ha hd a)
  | amend hd a => obtain rfl := Host.Outcome.next.inj h; exact takeRequest_admitsNone (ownAmend_admitsNone hs' _ a)
  | withdraw hd id => obtain rfl := Host.Outcome.next.inj h; exact takeRequest_admitsNone (ownWithdraw_admitsNone hs' _ id)
  | settle hd id => obtain rfl := Host.Outcome.next.inj h; exact takeRequest_admitsNone (ownSettle_admitsNone id _)
  | clockSet hd n d k => obtain rfl := Host.Outcome.next.inj h; exact takeRequest_admitsNone (ownClockSet_admitsNone n d k _)
  | powerOnReset _ | secondEvent _ | boundary _ | syncPulse _ | fullWalkComplete | trialWalkComplete => exact absurd rfl hc
  | _ => exact hframe (by simp [Instr.fields]) rfl

/-! ### The events -/

/-- No event but power-on reset and a trial walk that completes admits anything. -/
theorem event_admitsNone (c : Instr) (hc : c.request? = none) (hp : ∀ lines, c ≠ .powerOnReset lines)
    (hw : c ≠ .trialWalkComplete) (h : exec c s = .next t) : AdmitsNone s t := by
  have hP := admitsNone_apart s
  have hr := respondDue_admitsNone s
  have hheld : ∀ {f}, Kept (AdmitsNone s) f → exec c s = .next (unlessHeld f s) → AdmitsNone s t := fun hf hexec => by
    obtain rfl := Host.Outcome.next.inj (h.symm.trans hexec)
    exact unlessHeld_kept hf s (.refl s)
  have hframe : .table ∉ c.fields → .port ∉ c.fields → AdmitsNone s t := fun htable hport => by
    obtain ⟨t', ht, htouch⟩ := exec_frame c s
    obtain rfl := Host.Outcome.next.inj (h.symm.trans ht)
    exact .of_touches htouch ⟨htable, hport⟩
  cases c with
  | powerOnReset lines => exact absurd rfl (hp lines)
  | trialWalkComplete => exact absurd rfl hw
  | secondEvent how => exact hheld (hP.secondNow hr how) rfl
  | boundary how => exact hheld (fun _ => kept_ite (hP.boundaryNow hr how)) rfl
  | syncPulse how => exact hheld (fun _ => kept_ite (hP.pulseNow hr how)) rfl
  | startingExpiry x => exact hheld (fun _ => kept_ite (hP.enterReady x)) rfl
  | readyMaxExpiry x => exact hheld (fun _ => kept_ite (hP.enterStopping x)) rfl
  | stopTimeExpiry x => exact hheld (fun _ => kept_ite (hP.enterCooldown x)) rfl
  | minDownExpiry x => exact hheld (fun _ => kept_ite (hP.enterIdle x)) rfl
  | hotWindowExpiry x => exact hheld (fun _ => kept_ite fun u hu => hP.putTrain x _ u hu) rfl
  | confirmWindowExpiry d => exact hheld (fun _ => kept_ite (hP.releaseAct d _)) rfl
  | holdExpiry d => exact hheld (fun _ => kept_ite (hP.releaseAct d _)) rfl
  | supervisionExpiry => exact hheld (fun _ => kept_ite hP.countSupervision) rfl
  | fullWalkComplete => exact hheld (fun u hu => hu.trans (fullWalkCompletes_admitsNone u)) rfl
  | tripAssertion x => exact hheld (hP.tripAssert x) rfl
  | orderByte v f => exact hheld (hP.takeOrderByte v f) rfl
  | telegramGapTimeout =>
    refine hheld (fun u hu => ?_) rfl
    split
    · exact hu
    · exact hP.touches hu (discardTelegram_touches u)
  | frameWrittenWhileBusy => exact hheld (fun _ => kept_ite (f := discardFrame) fun _ hu => hu.trans (.of_table rfl id)) rfl
  | frameFailingChecks check =>
    refine hheld (fun u hu => ?_) rfl
    split
    · exact hu.trans (.of_table rfl id)
    · exact hu.trans (.answered rfl rfl)
  | unknownRequest k code =>
    refine hheld (fun u hu => ?_) rfl
    split
    · exact hu.trans (.of_table rfl id)
    · split
      · exact hu
      · exact (hu.trans (accepted_admitsNone u)).trans (answer_admitsNone _ _ _ _)
  | readingStale | heaterCycleWrap _ | tripRelease _ => exact hframe (by simp [Instr.fields]) (by simp [Instr.fields])
  | _ => exact absurd hc nofun

/-! ### ADMIT, and the trial walk that completes for it (R51, R52) -/

/-- R51: an ADMIT is in flight only where there is room for its entry. -/
theorem ownAdmit_room (a : AdmitArgs) (s : State) :
    (ownAdmit a s).port.inFlight = some .admitEntry → s.table.entries.length ≤ 127 := by
  unfold ownAdmit; split
  · exact nofun
  · split
    · exact nofun
    · split
      · exact nofun
      next hroom => exact fun _ => by omega

theorem takeRequest_admit_room (h : Head) (a : AdmitArgs) (hs : RoomLaw s) :
    (takeRequest .admitEntry h (ownAdmit a) s).port.inFlight = some .admitEntry → s.table.entries.length ≤ 127 := by
  intro hf
  obtain ⟨-, h⟩ | ⟨-, -, h⟩ | ⟨-, -, -, h⟩ | ⟨-, -, -, -, h⟩ | ⟨-, -, -, -, h⟩ := takeRequest_cases s .admitEntry h (ownAdmit a) <;>
    rw [h] at hf
  · exact hs hf
  · exact hs hf
  · cases hf
  · cases hf
  · exact accepted_table s ▸ ownAdmit_room a _ hf

theorem completeAmend_admitsNone (hs : IdsDistinct s) (k : Client) (id : Nat) (m : Amendment) :
    AdmitsNone s (completeAmend k id m s) := by
  have hr : ∀ r p, AdmitsNone s (answer 0x21 r p s) := fun r p => answer_admitsNone _ r p s
  unfold completeAmend; split
  · exact hr _ _
  next e he =>
    split
    · exact hr _ _
    · split
      · exact hr _ _
      · have hput : AdmitsNone s (putEntry { amended e m with status := .admitted } s) := putEntry_admitsNone hs he rfl
        exact (((admitsNone_apart s).basisChange _ (kept_ite (c := e.status.isAtRisk = true)
          ((admitsNone_apart s).raise .recovered) hput))).trans (answer_admitsNone _ _ _ _)

/-- R52, R93: a trial walk that completes admits nothing, or stores an ADMIT's candidate under the next id and seq. -/
theorem trialCompletes_cases (hs : IdsDistinct s) : AdmitsNone s (trialCompletes s)
    ∨ s.port.inFlight = some .admitEntry ∧ (trialCompletes s).port.inFlight = none ∧ ∃ e, (trialCompletes s).table =
      { entries := insertEntry (storedAs s e) s.table.entries, nextId := idAfter (takeId s), lastSeq := takeSeq s } := by
  have hover : AdmitsNone s (endTrial s) := .of_touches (endTrial_touches s)
  unfold trialCompletes; split
  next c included w _ _ =>
    unfold judgeTrial; split
    · exact .inl (hover.trans (answerInFlight_admitsNone _ _ _))
    · unfold completeAccepted; split
      · exact .inl hover
      next hf =>
        by_cases hg : gateClosed (endTrial s) c.entry = true
        · rw [completeAdmit_gateClosed hg]
          exact .inl (hover.trans (answer_admitsNone _ _ _ _))
        · refine .inr ⟨hf, ?_, c.entry, completeAdmit_table hg⟩
          rw [completeAdmit_stored hg]; rfl
      · exact .inl (hover.trans (completeAmend_admitsNone (s := endTrial s) hs _ _ _))
  · exact .inl (.refl s)

end

/-! ### The laws over one command -/

/-- From s to t the laws of the table are kept. -/
def KeepsTableLaws (s t : State) : Prop :=
  TableLaw s → RoomLaw s → TableLaw t ∧ RoomLaw t
    ∧ (IndexLaw s → SeqLaw s → s.table.lastSeq < 4294967295 → IndexLaw t ∧ SeqLaw t)

section
variable {s t : State}

theorem AdmitsNone.keepsTableLaws (h : AdmitsNone s t) : KeepsTableLaws s t := fun htable hroom =>
  ⟨h.tableLaw htable, h.roomLaw hroom, fun hindex hseq _ => ⟨h.indexLaw hindex, h.seqLaw hseq⟩⟩

/-- R51: ADMIT leaves the table, and is in flight only where there is room. -/
theorem admit_keepsTableLaws (h : Head) (a : AdmitArgs) (s : State) :
    KeepsTableLaws s (takeRequest .admitEntry h (ownAdmit a) s) := by
  intro htable hroom
  obtain ⟨t, ht, htouch⟩ := exec_frame (.admitEntry h a) s
  obtain rfl := Host.Outcome.next.inj ht
  have hstands := htouch .table (by simp [Instr.fields])
  refine ⟨?_, fun hf => ?_, fun hindex hseq _ => ⟨?_, ?_⟩⟩
  · rw [TableLaw, hstands]; exact htable
  · rw [hstands]; exact takeRequest_admit_room h a hroom hf
  · rw [IndexLaw, hstands]; exact hindex
  · rw [SeqLaw, hstands]; exact hseq

/-- R49, R50, R52: with room for it, an entry stored under the next id and seq leaves the table in order. -/
theorem stored_keepsTableLaws {e : Entry} (hf : s.port.inFlight = some .admitEntry) (hnone : t.port.inFlight = none)
    (ht : t.table =
      { entries := insertEntry (storedAs s e) s.table.entries, nextId := idAfter (takeId s), lastSeq := takeSeq s }) :
    KeepsTableLaws s t := by
  intro htable hroom
  obtain ⟨hfree, hlo, hhi⟩ := takeId_free htable
  obtain ⟨-, hids, hrange, -, -⟩ := htable
  have hperm := insertEntry_perm (storedAs s e) s.table.entries
  refine ⟨?_, fun h => (nomatch hnone.symm.trans h), fun hindex hseq hlast => ?_⟩
  · rw [TableLaw, ht]
    refine ⟨?_, ?_, fun x hx => ?_, ?_, ?_⟩
    · rw [hperm.length_eq, List.length_cons]
      exact Nat.succ_le_succ (hroom hf)
    · refine (hperm.map (·.id)).nodup_iff.mpr (List.nodup_cons.mpr ⟨fun hmem => ?_, hids⟩)
      obtain ⟨x, hx, hid⟩ := List.mem_map.mp hmem
      exact hfree ⟨x, hx, hid⟩
    · rcases mem_insertEntry.mp hx with rfl | hx
      · exact ⟨hlo, hhi⟩
      · exact hrange x hx
    all_goals dsimp only; unfold idAfter; split <;> omega
  · have hnext := takeSeq_next hlast
    have hyoung : ∀ x ∈ s.table.entries, x.seq < (storedAs s e).seq := fun x hx => by
      show x.seq < takeSeq s
      have := hseq x hx
      omega
    rw [IndexLaw, SeqLaw, ht]
    refine ⟨insertEntry_pairwise hindex hyoung, fun x hx => ?_⟩
    rcases mem_insertEntry.mp hx with rfl | hx
    · exact le_rfl
    · exact (hyoung x hx).le

theorem afterReset_keepsTableLaws (lines : PerTrain Bool) (ht : t.table = (State.afterReset lines).table)
    (hp : t.port = (State.afterReset lines).port) : KeepsTableLaws s t := by
  refine fun _ _ => ⟨?_, ?_, fun _ _ _ => ⟨?_, ?_⟩⟩
  · rw [TableLaw, ht]; exact afterReset_tableLaw lines
  · rw [RoomLaw, ht, hp]; exact afterReset_roomLaw lines
  · rw [IndexLaw, ht]; exact afterReset_indexLaw lines
  · rw [SeqLaw, ht]; exact afterReset_seqLaw lines

theorem trialCompletes_keepsTableLaws (s : State) : KeepsTableLaws s (unlessHeld trialCompletes s) := by
  unfold unlessHeld; split
  · exact (AdmitsNone.refl s).keepsTableLaws
  · intro htable hroom
    obtain h | ⟨hf, hnone, e, ht⟩ := trialCompletes_cases htable.2.1
    · exact h.keepsTableLaws htable hroom
    · exact stored_keepsTableLaws hf hnone ht htable hroom

/-- Each command keeps the laws of the table. -/
theorem exec_keepsTableLaws (c : Instr) (h : exec c s = .next t) : KeepsTableLaws s t := by
  intro htable hroom
  by_cases hc : c.request? = none
  · by_cases hp : ∃ lines, c = .powerOnReset lines
    · obtain ⟨lines, rfl⟩ := hp
      obtain rfl := Host.Outcome.next.inj h
      exact afterReset_keepsTableLaws lines.trip rfl rfl htable hroom
    · by_cases hw : c = .trialWalkComplete
      · subst hw
        obtain rfl := Host.Outcome.next.inj h
        exact trialCompletes_keepsTableLaws s htable hroom
      · exact (event_admitsNone c hc (fun lines hl => hp ⟨lines, hl⟩) hw h).keepsTableLaws htable hroom
  · by_cases ha : ∃ hd a, c = .admitEntry hd a
    · obtain ⟨hd, a, rfl⟩ := ha
      obtain rfl := Host.Outcome.next.inj h
      exact admit_keepsTableLaws hd a s htable hroom
    · exact (request_admitsNone htable.2.1 c hc (fun hd a hl => ha ⟨hd, a, hl⟩) h).keepsTableLaws htable hroom

end

end Sys2Proof.Machine
end

section
open Sys2Proof Sys2Proof.Machine

set_option Elab.async false

/-- Settles O57: a command admits nothing, asks for a slot, or takes it under a free id and the next seq; a response that
is due admits nothing. -/
theorem stepKeepsTableAndIndex : Obligations.StepKeepsTableAndIndex := by
  intro s t htable hroom h
  unfold step at h
  split at h
  next =>
    obtain rfl := Host.Outcome.next.inj h
    exact (unlessHeld_kept ((admitsNone_apart s).respondNext (respondDue_admitsNone s)) s (.refl s)).keepsTableLaws htable hroom
  next c rest _ => exact exec_keepsTableLaws (s := s.withPending rest) c h htable hroom

end

section
/-! SUPPORT. O42, the closings. What each response to a boundary does to the dispatcher's closing, the activation records and the
notices, and what stands through all of them whatever their order: the figures of the interval once closed, and the notices once every
response has been made (R64, R69, R146, R160, R162). -/

namespace Sys2Proof.Machine

set_option Elab.async false

/-! ### Notices exactly (R183) -/

theorem Notice.place_injective : Function.Injective Notice.place := fun m _ h =>
  (List.idxOf_inj (show m ∈ Notice.all by cases m <;> decide)).mp h

/-- R183: raising a notice latches that notice and no other. -/
theorem latched_raise_iff (k n : Notice) (s : State) : Latched k (raise n s) ↔ k = n ∨ Latched k s := by
  have hplace : n.bit.getLsbD k.place = true ↔ k = n := by
    rw [n.bit_eq_twoPow, BitVec.getLsbD_twoPow, Bool.and_eq_true, decide_eq_true_eq, decide_eq_true_eq]
    exact ⟨fun h => Notice.place_injective h.2.symm, fun h => h ▸ ⟨k.place_lt, rfl⟩⟩
  rw [Latched, Latched, raise_latched, and_bit_eq_bit_iff, and_bit_eq_bit_iff, BitVec.getLsbD_or, Bool.or_eq_true, hplace, or_comm]

theorem latched_of_port {s t : State} (h : t.port.latched = s.port.latched) (k : Notice) : Latched k t ↔ Latched k s := by
  rw [Latched, h]

/-- A notice that is raised only under a condition. -/
theorem latched_raise_ite (k n : Notice) (p : Prop) [Decidable p] (s : State) :
    Latched k (if p then raise n s else s) ↔ k = n ∧ p ∨ Latched k s := by
  split
  next h => rw [latched_raise_iff, and_iff_left h]
  next h => simp only [h, and_false, false_or]

theorem basisChangeAt_latched (n : Nat) (s : State) : (basisChangeAt n s).port.latched = s.port.latched := by
  have hcount : ∀ u, (countRestart u).port.latched = u.port.latched := fun u => by
    unfold countRestart answerInFlight; split
    · rfl
    all_goals
      split
      · rfl
      · split <;> rfl
  unfold basisChangeAt; split
  · split <;> rfl
  all_goals exact hcount _

/-- R18: of the notices the close raises REBASED alone. -/
theorem accountClose_latched_other {k : Notice} (hk : k ≠ .rebased) (s : State) : Latched k (accountClose s) ↔ Latched k s := by
  cases h : s.account.basis with
  | unbased => rw [accountClose_unbased h]; rfl
  | based =>
    rw [accountClose_taken h]
    refine (latched_of_port (basisChangeAt_latched _ _) k).trans ?_
    unfold closeTaken; dsimp only
    rw [latched_raise_ite]
    simp only [hk, false_and, false_or]
    rfl

/-! ### One record, and the dispatcher's closing (R146, R162) -/

/-- R146: the dispatcher's record once interval n is closed. -/
def Dispatch.shut (n : Nat) (v : Dispatch) : Dispatch :=
  if v.closing.interval = n then v else { v with closing := closingFigures n v, schedKj := 0, delKj := 0 }

/-- R162: an activation record once interval n is closed. -/
def Activation.shut (n : Nat) (a : Activation) : Activation :=
  if a.closing.interval = n then a else { a with closing := ⟨n, a.servedKj, a.requestedKj⟩, servedKj := 0, requestedKj := 0 }

/-- R162: closing interval n finds the record's served energy short of what was requested. -/
def Activation.closesShort (n tol : Nat) (a : Activation) : Prop :=
  a.closing.interval ≠ n ∧ (a.shut n).closing.isShort tol = true

section
variable (n : Nat)

theorem Dispatch.shut_interval (v : Dispatch) : (v.shut n).closing.interval = n := by
  unfold Dispatch.shut; split
  next h => exact h
  · rfl

theorem Dispatch.shut_of_closed {v : Dispatch} (h : v.closing.interval = n) : v.shut n = v := if_pos h

theorem Dispatch.shut_shut (v : Dispatch) : (v.shut n).shut n = v.shut n := shut_of_closed n (shut_interval n v)

theorem Activation.shut_interval (a : Activation) : (a.shut n).closing.interval = n := by
  unfold Activation.shut; split
  next h => exact h
  · rfl

theorem Activation.shut_of_closed {a : Activation} (h : a.closing.interval = n) : a.shut n = a := if_pos h

theorem Activation.shut_shut (a : Activation) : (a.shut n).shut n = a.shut n := shut_of_closed n (shut_interval n a)

@[simp] theorem Activation.shut_state (a : Activation) : (a.shut n).state = a.state := by unfold Activation.shut; split <;> rfl

/-- R162: a closing and a release write different fields of a record. -/
theorem Activation.shut_releasedBy (why : ReleaseReason) (a : Activation) :
    (a.releasedBy why).shut n = (a.shut n).releasedBy why := by
  cases hs : a.state <;> by_cases hi : a.closing.interval = n <;> simp [Activation.releasedBy, Activation.shut, hs, hi]

theorem dispatchClose_eq (s : State) : (dispatchClose n s).dispatch = s.dispatch.shut n := by
  unfold dispatchClose Dispatch.shut; split <;> rfl

theorem closeAct_act (d e : Dir) (s : State) : (closeAct n d s).act e = if e = d then (s.act d).shut n else s.act e := by
  by_cases he : e = d
  · subst he
    rw [if_pos rfl]
    unfold closeAct Activation.shut; dsimp only
    split
    · rfl
    · split <;> simp
  · rw [closeAct_other s n he, if_neg he]

theorem closeAct_latched (d : Dir) (s : State) (k : Notice) : Latched k (closeAct n d s) ↔
    k = .orderShort ∧ (s.act d).closesShort n s.limits.curtailTol ∨ Latched k s := by
  unfold closeAct Activation.closesShort Activation.shut; dsimp only
  by_cases h : (s.act d).closing.interval = n
  · simp only [h, if_true, ne_eq, not_true_eq_false, false_and, and_false, false_or]
  · simp only [h, if_false, ne_eq, not_false_eq_true, true_and]
    rw [latched_raise_ite]
    exact or_congr_right (latched_of_port (by cases d <;> rfl) k)

/-- R162: both records close interval n. -/
theorem eachDir_closeAct_act (e : Dir) (s : State) : (eachDir (closeAct n) s).act e = (s.act e).shut n := by
  cases e <;> simp [eachDir, closeAct_act]

theorem eachDir_closeAct_latched (s : State) (k : Notice) : Latched k (eachDir (closeAct n) s) ↔
    k = .orderShort ∧ (∃ d, (s.act d).closesShort n s.limits.curtailTol) ∨ Latched k s := by
  have hlimits : (closeAct n .up s).limits = s.limits := (closeAct_touches s n .up).get .limits
  rw [eachDir, closeAct_latched, closeAct_latched, closeAct_other s n (by decide), hlimits]
  constructor
  · rintro (⟨hk, h⟩ | ⟨hk, h⟩ | h)
    exacts [.inl ⟨hk, _, h⟩, .inl ⟨hk, _, h⟩, .inr h]
  · rintro (⟨hk, d, h⟩ | h)
    · cases d
      exacts [.inr (.inl ⟨hk, h⟩), .inl ⟨hk, h⟩]
    · exact .inr (.inr h)

end

/-! ### Backing (R160) -/

/-- R160: a record is ACTIVE, and no entry that is not closed backs it in interval n. -/
def unbackedIn (n : Nat) (s : State) (d : Dir) : Bool := decide ((s.act d).state = .active) && !stillBacked s d n

/-- R160: a record after its backing has been checked. -/
def Activation.checked (unbacked : Bool) (a : Activation) : Activation := if unbacked then a.releasedBy .backingEnded else a

@[simp] theorem Activation.checked_true (a : Activation) : a.checked true = a.releasedBy .backingEnded := rfl

@[simp] theorem Activation.checked_false (a : Activation) : a.checked false = a := rfl

theorem Activation.shut_checked (n : Nat) (b : Bool) (a : Activation) : (a.checked b).shut n = (a.shut n).checked b := by
  cases b with
  | false => rfl
  | true => exact shut_releasedBy n _ a

/-- What a closing leaves of a record (R162). -/
def Activation.figures (a : Activation) : ActClosing × Nat × Nat := (a.closing, a.servedKj, a.requestedKj)

/-- R162: what a closing writes does not depend on a release. -/
theorem Activation.checked_figures (n : Nat) (b : Bool) (a : Activation) : ((a.checked b).shut n).figures = (a.shut n).figures := by
  rw [shut_checked]
  cases b with
  | false => rfl
  | true => rw [checked_true]; unfold Activation.releasedBy; split <;> rfl

theorem Activation.checked_closesShort (n tol : Nat) (b : Bool) (a : Activation) :
    (a.checked b).closesShort n tol ↔ a.closesShort n tol := by
  have hclosing : ∀ b, (a.checked b).closing = a.closing := by
    rintro (_ | _)
    exacts [rfl, releasedBy_closing _ a]
  have hshut : ((a.checked b).shut n).closing = (a.shut n).closing := congrArg Prod.fst (checked_figures n b a)
  rw [closesShort, closesShort, hclosing, hshut]

section
variable (n : Nat) (s : State)

theorem releaseAct_latched (d : Dir) (k : Notice) (h : (s.act d).state = .active) :
    Latched k (releaseAct d .backingEnded s) ↔ k = .order ∨ Latched k s := by
  simp only [releaseAct, h, reduceCtorEq, if_false]
  rw [latched_raise_iff]
  exact or_congr_right (latched_of_port (by cases d <;> rfl) k)

theorem checkBacking_eq (d : Dir) :
    checkBacking n d s = if unbackedIn n s d = true then releaseAct d .backingEnded s else s := by
  simp only [checkBacking, unbackedIn, Bool.and_eq_true, decide_eq_true_eq, Bool.not_eq_true']

theorem checkBacking_act (d e : Dir) :
    (checkBacking n d s).act e = if e = d then (s.act d).checked (unbackedIn n s d) else s.act e := by
  rw [checkBacking_eq]
  by_cases h : unbackedIn n s d = true
  · rw [if_pos h, releaseAct_act, h, Activation.checked_true]
  · rw [if_neg h, eq_false_of_ne_true h, Activation.checked_false]
    split
    next he => rw [he]
    · rfl

theorem checkBacking_latched (d : Dir) (k : Notice) :
    Latched k (checkBacking n d s) ↔ k = .order ∧ unbackedIn n s d = true ∨ Latched k s := by
  rw [checkBacking_eq]
  by_cases h : unbackedIn n s d = true
  · have ha : (s.act d).state = .active := of_decide_eq_true (Bool.and_eq_true_iff.mp h).1
    rw [if_pos h, releaseAct_latched s d k ha, and_iff_left h]
  · simp only [h, if_false, and_false, false_or, Bool.false_eq_true]

/-- R160: the check of one direction does not bear on the other's. -/
theorem checkBacking_unbackedIn {d e : Dir} (h : e ≠ d) : unbackedIn n (checkBacking n d s) e = unbackedIn n s e := by
  have htable : (checkBacking n d s).table = s.table := (checkBacking_touches s n d).get .table
  rw [unbackedIn, unbackedIn, stillBacked, stillBacked, checkBacking_act, if_neg h, htable]

theorem eachDir_checkBacking_act (e : Dir) :
    (eachDir (checkBacking n) s).act e = (s.act e).checked (unbackedIn n s e) := by
  have hdown := checkBacking_unbackedIn n s (d := .up) (e := .down) (by decide)
  cases e <;> simp [eachDir, checkBacking_act, hdown]

theorem eachDir_checkBacking_latched (k : Notice) :
    Latched k (eachDir (checkBacking n) s) ↔ k = .order ∧ (∃ d, unbackedIn n s d = true) ∨ Latched k s := by
  rw [eachDir, checkBacking_latched, checkBacking_latched, checkBacking_unbackedIn n s (by decide)]
  constructor
  · rintro (⟨hk, h⟩ | ⟨hk, h⟩ | h)
    exacts [.inl ⟨hk, _, h⟩, .inl ⟨hk, _, h⟩, .inr h]
  · rintro (⟨hk, d, h⟩ | h)
    · cases d
      exacts [.inr (.inl ⟨hk, h⟩), .inl ⟨hk, h⟩]
    · exact .inr (.inr h)

end

/-! ### The two responses that close (R64, R160, R162) -/

section
variable (m n : Nat) (s : State)

theorem ordersBoundary_act (d : Dir) :
    (ordersBoundary m n s).act d = ((s.act d).checked (unbackedIn n s d)).shut m := by
  rw [ordersBoundary, eachDir_closeAct_act, eachDir_checkBacking_act]

theorem ordersBoundary_latched (k : Notice) : Latched k (ordersBoundary m n s) ↔
    k = .orderShort ∧ (∃ d, (s.act d).closesShort m s.limits.curtailTol)
      ∨ k = .order ∧ (∃ d, unbackedIn n s d = true) ∨ Latched k s := by
  have hlimits : (eachDir (checkBacking n) s).limits = s.limits :=
    (eachDir_touches s _ fun d u => checkBacking_touches u n d).get .limits
  rw [ordersBoundary, eachDir_closeAct_latched, eachDir_checkBacking_latched, hlimits]
  simp only [eachDir_checkBacking_act, Activation.checked_closesShort]

theorem releaseAct_patterns (d : Dir) (why : ReleaseReason) : (releaseAct d why s).orders.patterns = s.orders.patterns := by
  rcases releaseAct_eq d why s with h | h <;> rw [h]
  · exact setAct_patterns s d _
  · exact setAct_patterns s d _

theorem closeAct_patterns (d : Dir) : (closeAct n d s).orders.patterns = s.orders.patterns := by
  unfold closeAct; dsimp only
  split
  · rfl
  · split <;> exact setAct_patterns s d _

theorem eachDir_closeAct_patterns : (eachDir (closeAct n) s).orders.patterns = s.orders.patterns :=
  (closeAct_patterns n _ .down).trans (closeAct_patterns n s .up)

theorem ordersBoundary_patterns : (ordersBoundary m n s).orders.patterns = s.orders.patterns := by
  have hcheck : ∀ d u, (checkBacking n d u).orders.patterns = u.orders.patterns := fun d u => by
    unfold checkBacking; split
    · exact releaseAct_patterns u d _
    · rfl
  exact (eachDir_closeAct_patterns m _).trans ((hcheck .down _).trans (hcheck .up s))

theorem tableBoundary_patterns : (tableBoundary m n s).orders.patterns = s.orders.patterns := by
  have horders : (tableBoundary m n s).orders = (takeClosings m s).orders := (tableBoundary_frame s m n).get .orders
  have hdispatch : (dispatchClose m s).orders = s.orders := (dispatchClose_touches s m).get .orders
  rw [horders, takeClosings, eachDir_closeAct_patterns, hdispatch]

theorem takeClosings_dispatch : (takeClosings m s).dispatch = s.dispatch.shut m := by
  have hacts := (eachDir_touches (dispatchClose m s) _ fun d u => closeAct_touches u m d).get .dispatch
  exact hacts.trans (dispatchClose_eq m s)

theorem takeClosings_act (d : Dir) : (takeClosings m s).act d = (s.act d).shut m := by
  rw [takeClosings, eachDir_closeAct_act, act_of_orders ((dispatchClose_touches s m).get .orders)]

theorem takeClosings_latched (k : Notice) : Latched k (takeClosings m s) ↔
    k = .orderShort ∧ (∃ d, (s.act d).closesShort m s.limits.curtailTol) ∨ Latched k s := by
  have hlimits : (dispatchClose m s).limits = s.limits := (dispatchClose_touches s m).get .limits
  have hport : (dispatchClose m s).port = s.port := (dispatchClose_touches s m).get .port
  rw [takeClosings, eachDir_closeAct_latched, hlimits]
  simp only [act_of_orders ((dispatchClose_touches s m).get .orders)]
  exact or_congr_right (latched_of_port (by rw [hport]) k)

theorem tableBoundary_dispatch : (tableBoundary m n s).dispatch = s.dispatch.shut m :=
  ((tableBoundary_frame s m n).get .dispatch).trans (takeClosings_dispatch m s)

theorem tableBoundary_act (d : Dir) : (tableBoundary m n s).act d = (s.act d).shut m :=
  (act_of_orders ((tableBoundary_frame s m n).get .orders) d).trans (takeClosings_act m s d)

/-- R67: ENTRY_CLOSED is raised where an ACTIVE entry has its last interval behind it. -/
theorem tableBoundary_latched (k : Notice) : Latched k (tableBoundary m n s) ↔
    k = .entryClosed ∧ (∃ e ∈ s.table.entries, e.status = .active ∧ e.last = m) ∨ Latched k (takeClosings m s) := by
  have htable : (takeClosings m s).table = s.table := (takeClosings_touches s m).get .table
  have hcloses : ∀ e, closesAt m (credited (takeClosings m s) e) = closesAt m e := fun e => by
    obtain ⟨-, -, hst, hlast⟩ := credited_status (takeClosings m s) e
    rw [closesAt, closesAt, hst, hlast]
  have hany : ((takeClosings m s).table.entries.map (credited (takeClosings m s))).any (closesAt m) = true ↔
      ∃ e ∈ s.table.entries, e.status = .active ∧ e.last = m := by
    rw [htable, List.any_map, List.any_eq_true]
    exact exists_congr fun e => and_congr_right fun _ => by
      rw [Function.comp_apply, hcloses, closesAt, Bool.and_eq_true, decide_eq_true_eq, decide_eq_true_eq]
  unfold tableBoundary; dsimp only
  rw [latched_raise_ite, hany]
  rfl

end

/-! ### What stands through a boundary (R69) -/

/-- From u to v, whatever closings of interval m have been made between: the limits, the patterns and the assembler stand, the figures
once closed are the same, and ORDER_SHORT is latched or owed in both or in neither. -/
structure SameClosed (m : Nat) (u v : State) : Prop where
  limits : v.limits = u.limits
  patterns : v.orders.patterns = u.orders.patterns
  assembler : v.orders.assembler = u.orders.assembler
  dispatch : v.dispatch.shut m = u.dispatch.shut m
  figures : ∀ d, ((v.act d).shut m).figures = ((u.act d).shut m).figures
  short : (Latched .orderShort v ∨ ∃ d, (v.act d).closesShort m v.limits.curtailTol)
    ↔ (Latched .orderShort u ∨ ∃ d, (u.act d).closesShort m u.limits.curtailTol)

/-- From u to v: the records once checked and closed are the same, and ORDER is latched or owed in both or in neither. -/
structure SameChecked (m n : Nat) (u v : State) : Prop where
  acts : ∀ d, ((v.act d).checked (unbackedIn n v d)).shut m = ((u.act d).checked (unbackedIn n u d)).shut m
  order : (Latched .order v ∨ ∃ d, unbackedIn n v d = true) ↔ (Latched .order u ∨ ∃ d, unbackedIn n u d = true)

section
variable {m n : Nat} {u v w : State}

theorem SameClosed.refl (u : State) : SameClosed m u u := ⟨rfl, rfl, rfl, rfl, fun _ => rfl, .rfl⟩

theorem SameClosed.trans (h : SameClosed m u v) (k : SameClosed m v w) : SameClosed m u w where
  limits := k.limits.trans h.limits
  patterns := k.patterns.trans h.patterns
  assembler := k.assembler.trans h.assembler
  dispatch := k.dispatch.trans h.dispatch
  figures d := (k.figures d).trans (h.figures d)
  short := k.short.trans h.short

theorem SameChecked.refl (u : State) : SameChecked m n u u := ⟨fun _ => rfl, .rfl⟩

theorem SameChecked.trans (h : SameChecked m n u v) (k : SameChecked m n v w) : SameChecked m n u w where
  acts d := (k.acts d).trans (h.acts d)
  order := k.order.trans h.order

/-- The fields the responses beside the dispatcher's, the table's and the receiver's touch. -/
abbrev besideFields : List Field := [.account, .heat, .trains, .proj, .port]

theorem SameClosed.of_touches (h : Touches besideFields u v) (hl : Latched .orderShort v ↔ Latched .orderShort u) :
    SameClosed m u v where
  limits := h.get .limits
  patterns := by rw [h.get .orders]
  assembler := by rw [h.get .orders]
  dispatch := by rw [h.get .dispatch]
  figures d := by rw [act_of_orders (h.get .orders)]
  short := by
    have hlimits : v.limits = u.limits := h.get .limits
    simp only [act_of_orders (h.get .orders), hlimits, hl]

theorem unbackedIn_of_eq (ho : v.orders = u.orders) (ht : v.table = u.table) (d : Dir) : unbackedIn n v d = unbackedIn n u d := by
  rw [unbackedIn, unbackedIn, stillBacked, stillBacked, act_of_orders ho, ht]

theorem SameChecked.of_touches (ho : v.orders = u.orders) (ht : v.table = u.table)
    (hl : Latched .order v ↔ Latched .order u) : SameChecked m n u v where
  acts d := by rw [act_of_orders ho, unbackedIn_of_eq ho ht]
  order := by simp only [unbackedIn_of_eq ho ht, hl]

/-- A record whose interval is closed owes nothing. -/
theorem not_closesShort_shut (tol : Nat) (a : Activation) : ¬ (a.shut m).closesShort m tol := fun h =>
  h.1 (Activation.shut_interval m a)

section
variable (b : Turn) (u : State)

theorem dispatchClose_sameClosed (m : Nat) : SameClosed m u (dispatchClose m u) := by
  have h := dispatchClose_touches u m
  have horders : (dispatchClose m u).orders = u.orders := h.get .orders
  have hlimits : (dispatchClose m u).limits = u.limits := h.get .limits
  have hport : (dispatchClose m u).port = u.port := h.get .port
  exact
    { limits := hlimits
      patterns := by rw [horders]
      assembler := by rw [horders]
      dispatch := by rw [dispatchClose_eq, Dispatch.shut_shut]
      figures := fun d => by rw [act_of_orders horders]
      short := by simp only [act_of_orders horders, hlimits, latched_of_port (congrArg Port.latched hport)] }

theorem ordersBoundary_sameClosed (m n : Nat) : SameClosed m u (ordersBoundary m n u) := by
  have h := ordersBoundary_touches u m n
  exact
    { limits := h.get .limits
      patterns := ordersBoundary_patterns m n u
      assembler := (ordersBoundary_calm u m n).assembler
      dispatch := by rw [h.get .dispatch]
      figures := fun d => by rw [ordersBoundary_act, Activation.shut_shut, Activation.checked_figures]
      short := by
        simp only [ordersBoundary_act, ordersBoundary_latched, not_closesShort_shut, exists_false, reduceCtorEq,
          false_and, false_or, true_and, or_comm] }

theorem tableBoundary_sameClosed (m n : Nat) : SameClosed m u (tableBoundary m n u) where
  limits := (tableBoundary_touches u m n).get .limits
  patterns := tableBoundary_patterns m n u
  assembler := (tableBoundary_calm u m n).assembler
  dispatch := by rw [tableBoundary_dispatch, Dispatch.shut_shut]
  figures d := by rw [tableBoundary_act, Activation.shut_shut]
  short := by
    simp only [tableBoundary_act, tableBoundary_latched, takeClosings_latched, not_closesShort_shut, exists_false,
      reduceCtorEq, false_and, false_or, true_and, or_comm]

/-- R69: each response to a boundary leaves what the closings come to. -/
theorem respondBoundary_sameClosed (p : Part) : SameClosed b.ended u (respondBoundary b p u) := by
  have hquiet : ∀ {fs : List Field} {v : State}, Touches fs u v → .port ∉ fs → fs ⊆ besideFields → SameClosed b.ended u v :=
    fun {fs v} h hp hfs => .of_touches (h.mono hfs) (latched_of_port (congrArg Port.latched (h .port hp)) _)
  cases p with
  | accountClose => exact .of_touches ((accountClose_touches u).mono (by decide)) (accountClose_latched_other (by decide) u)
  | storesLoss => exact hquiet (storesLoss_touches u) (by decide) (by decide)
  | tableBoundary => exact tableBoundary_sameClosed u _ _
  | dispatchClose => exact dispatchClose_sameClosed u _
  | ordersBoundary => exact ordersBoundary_sameClosed u _ _
  | trainsDay => exact hquiet (trainsDay_touches u b) (by decide) (by decide)
  | projectionBoundary =>
    exact .of_touches ((basisChange_touches u).mono (by decide)) (latched_of_port (basisChangeAt_latched _ u) _)
  | _ => exact .refl u

end

end

end Sys2Proof.Machine
end

section
/-! SUPPORT. O42, the table. What a boundary makes of one entry (R64 to R68), and what backs an activation before it and after it (R160). -/

namespace Sys2Proof.Machine

set_option Elab.async false

/-! ### The shares of the served energy (R66) -/

/-- R66: of the records named, one has the least seq where no other's is less. -/
theorem foldl_min_spec : ∀ (l : List Nat) (a : Nat), (∀ x ∈ a :: l, l.foldl min a ≤ x) ∧ l.foldl min a ∈ a :: l
  | [], a => by simp
  | x :: l, a => by
    obtain ⟨hle, hmem⟩ := foldl_min_spec l (min a x)
    have hmin := hle _ List.mem_cons_self
    refine ⟨fun y hy => ?_, ?_⟩
    · rcases List.mem_cons.mp hy with rfl | hy
      · exact hmin.trans (min_le_left _ _)
      · rcases List.mem_cons.mp hy with rfl | hy
        · exact hmin.trans (min_le_right _ _)
        · exact hle y (List.mem_cons_of_mem _ hy)
    · rw [List.foldl_cons]
      rcases List.mem_cons.mp hmem with h | h
      · rw [h]; rcases min_choice a x with hc | hc <;> simp [hc]
      · exact List.mem_cons_of_mem _ (List.mem_cons_of_mem _ h)

theorem eq_leastSeq_iff {named : List Entry} {e : Entry} (he : e ∈ named) :
    e.seq = (named.map (·.seq)).foldl min ((named.map (·.seq)).headD 0) ↔ ∀ f ∈ named, e.seq ≤ f.seq := by
  obtain ⟨x, xs, rfl⟩ := List.exists_cons_of_ne_nil (List.ne_nil_of_mem he)
  have hfold : ((x :: xs).map (·.seq)).foldl min (((x :: xs).map (·.seq)).headD 0) = (xs.map (·.seq)).foldl min x.seq := by
    rw [List.map_cons, List.headD_cons, List.foldl_cons, min_self]
  obtain ⟨hle, hmem⟩ := foldl_min_spec (xs.map (·.seq)) x.seq
  rw [hfold]
  constructor
  · intro h f hf
    exact h ▸ hle _ (List.mem_map_of_mem (f := (·.seq)) hf)
  · intro h
    obtain ⟨f, hf, heq⟩ := List.mem_map.mp (show _ ∈ (x :: xs).map (·.seq) from hmem)
    exact le_antisymm (heq ▸ h f hf) (hle _ (List.mem_map_of_mem (f := (·.seq)) he))

/-- R66: the share of one of the records named. -/
def shareIn (total : Nat) (named : List Entry) (e : Entry) : Nat :=
  total * e.power / (named.map (·.power)).sum
    + if ∀ f ∈ named, e.seq ≤ f.seq then
        total - (named.map fun f => total * f.power / (named.map (·.power)).sum).sum
      else 0

/-- R66: each record named has its share. -/
theorem energyShares_eq (total : Nat) (named : List Entry) :
    energyShares total named = named.map fun e => (e.id, shareIn total named e) := by
  unfold energyShares; dsimp only
  rw [List.map_map, List.zip_map_right, List.zip_eq_zipWith, List.zipWith_self, List.map_map, List.map_map]
  refine List.map_congr_left fun e he => ?_
  simp only [Function.comp_apply, Prod.map_apply, id_eq, eq_leastSeq_iff he, shareIn, Function.comp_def]
  split <;> rfl

/-- R66: the share found under a record's id is its own. -/
theorem energyShares_find {total : Nat} {named : List Entry} {e : Entry} (he : e ∈ named) (hn : (named.map (·.id)).Nodup) :
    ((energyShares total named).find? fun x => x.1 == e.id).elim 0 (·.2) = shareIn total named e := by
  have hfind : named.find? (fun f => f.id == e.id) = some e := by
    obtain ⟨f, hf⟩ := Option.isSome_iff_exists.mp 
      (List.find?_isSome (p := fun f : Entry => f.id == e.id).mpr ⟨e, he, beq_self_eq_true e.id⟩)
    have hid : f.id = e.id := by simpa using List.find?_some hf
    rw [hf, List.inj_on_of_nodup_map hn (List.mem_of_find?_eq_some hf) he hid]
  rw [energyShares_eq, List.find?_map]
  simp only [Function.comp_def, hfind, Option.map_some, Option.elim_some]

/-! ### One entry at a boundary (R64 to R68) -/

/-- R64 to R66: what a boundary credits an ACTIVE entry, and whether it counts as a short interval. -/
def creditOf (s : State) (e : Entry) : Nat × Bool :=
  match e.kind.reserveDir with
  | none => energyCredit s.limits s.dispatch.closing e
  | some d => reserveCredit s d e

/-- R65, R66: an entry with a credit. -/
def Entry.withCredit (c : Nat × Bool) (e : Entry) : Entry :=
  { e with delivered := e.delivered + c.1, shortCount := e.shortCount + if c.2 then 1 else 0 }

/-- R67: how an entry closes. -/
def Entry.closing (e : Entry) : EntryStatus := if e.shortCount = 0 then .delivered else .curtailed

/-- R65 to R67: an ACTIVE entry with a boundary's credit, closed where its last interval ends. -/
def Entry.activeAfter (m : Nat) (c : Nat × Bool) (e : Entry) : Entry :=
  { e.withCredit c with status := if e.last = m then (e.withCredit c).closing else .active }

section
variable {s : State} {e : Entry} {m n : Nat}

theorem credited_active (h : e.status = .active) : credited s e = e.withCredit (creditOf s e) := by
  unfold credited creditOf Entry.withCredit; rw [if_pos h]
  cases e.kind.reserveDir <;> dsimp only <;> split <;> rfl

theorem closing_not_open (e : Entry) : e.closing.isOpen = false := by unfold Entry.closing; split <;> rfl

theorem openedAt_not_open (h : e.status.isOpen = false) : openedAt n e = e := if_neg fun ho => by simp [h] at ho

theorem settled_active (h : e.status = .active) :
    openedAt n (closedAt m (credited s e)) = e.activeAfter m (creditOf s e) := by
  have hcloses : closesAt m (e.withCredit (creditOf s e)) = true ↔ e.last = m := by
    have hstatus : (e.withCredit (creditOf s e)).status = .active := h
    rw [closesAt, hstatus, Bool.and_eq_true, decide_eq_true_eq, decide_eq_true_eq]
    exact and_iff_right rfl
  rw [credited_active h, closedAt, Entry.activeAfter]
  by_cases hlast : e.last = m
  · rw [if_pos (hcloses.mpr hlast), if_pos hlast]
    exact openedAt_not_open (closing_not_open (e.withCredit (creditOf s e)))
  · have hactive : { e.withCredit (creditOf s e) with status := .active } = e.withCredit (creditOf s e) := by
      rw [← h]; rfl
    rw [if_neg (mt hcloses.mp hlast), if_neg hlast, hactive]
    exact openedAt_not_open (show e.status.isOpen = false by rw [h]; rfl)

/-- R68: an entry that is not ACTIVE is credited nothing, and becomes ACTIVE where its first interval begins. -/
theorem settled_notActive (h : e.status ≠ .active) : openedAt n (closedAt m (credited s e)) =
    if e.status.isOpen = true ∧ e.first = n then { e with status := .active } else e := by
  have hcloses : closesAt m e = false := by simp [closesAt, h]
  rw [credited, if_neg h, closedAt, hcloses, if_neg (by decide), openedAt]

/-- R46, R67, R68: a boundary leaves an entry's kind and its intervals. -/
theorem settled_span (s : State) (m n : Nat) (e : Entry) : (openedAt n (closedAt m (credited s e))).kind = e.kind
    ∧ (openedAt n (closedAt m (credited s e))).first = e.first ∧ (openedAt n (closedAt m (credited s e))).last = e.last := by
  by_cases h : e.status = .active
  · rw [settled_active h]; exact ⟨rfl, rfl, rfl⟩
  · rw [settled_notActive h]; split <;> exact ⟨rfl, rfl, rfl⟩

/-- R67: an entry that reaches past interval m is not closed by it. -/
theorem settled_isClosed (h : m < e.last) : (openedAt n (closedAt m (credited s e))).status.isClosed = e.status.isClosed := by
  by_cases ha : e.status = .active
  · rw [settled_active ha, Entry.activeAfter, if_neg h.ne', ha]
  · rw [settled_notActive ha]
    split
    next ho =>
      obtain ⟨ho, -⟩ := ho
      revert ho
      cases e.status <;> simp [EntryStatus.isOpen, EntryStatus.isClosed]
    · rfl

/-- R160: an entry that backs an activation in a later interval backs it once the boundary has been made. -/
theorem tableBoundary_stillBacked (u : State) (d : Dir) {k : Nat} (h : m < k) :
    stillBacked (tableBoundary m n u) d k = stillBacked u d k := by
  rw [stillBacked, stillBacked, tableBoundary_entries, List.any_map]
  congr 1
  funext e
  obtain ⟨hkind, hfirst, hlast⟩ := settled_span (takeClosings m u) m n e
  simp only [Function.comp_apply, Entry.covers, hkind, hfirst, hlast]
  by_cases hk : k ≤ e.last
  · rw [settled_isClosed (h.trans_le hk)]
  · simp [hk]

end

/-! ### The checks of the backing, whatever the order (R69, R160) -/

section
variable {m n : Nat} (h : m < n) (u : State)

/-- R160: once checked, no record is left ACTIVE without backing. -/
theorem ordersBoundary_backed (d : Dir) : unbackedIn n (ordersBoundary m n u) d = false := by
  have htable : (ordersBoundary m n u).table = u.table := (ordersBoundary_touches u m n).get .table
  rw [unbackedIn, ordersBoundary_act, Activation.shut_state, stillBacked, htable]
  cases hb : unbackedIn n u d with
  | true => rw [Activation.checked_true, releasedBy_state]; rfl
  | false => exact hb

theorem ordersBoundary_sameChecked : SameChecked m n u (ordersBoundary m n u) where
  acts d := by rw [ordersBoundary_backed, Activation.checked_false, ordersBoundary_act, Activation.shut_shut]
  order := by
    simp only [ordersBoundary_backed, ordersBoundary_latched, reduceCtorEq, false_and, false_or, true_and, exists_false,
      Bool.false_eq_true, or_comm]

include h

theorem tableBoundary_unbackedIn (d : Dir) : unbackedIn n (tableBoundary m n u) d = unbackedIn n u d := by
  rw [unbackedIn, unbackedIn, tableBoundary_stillBacked u d h, tableBoundary_act, Activation.shut_state]

theorem tableBoundary_sameChecked : SameChecked m n u (tableBoundary m n u) where
  acts d := by
    rw [tableBoundary_unbackedIn h, tableBoundary_act, Activation.shut_checked, Activation.shut_shut, Activation.shut_checked]
  order := by
    simp only [tableBoundary_unbackedIn h, tableBoundary_latched, takeClosings_latched, reduceCtorEq, false_and, false_or]

end

section
variable (b : Turn) (u : State)

/-- The responses that write neither the table nor the records. -/
def leavesOrders : Part → Bool
  | .tableBoundary | .ordersBoundary => false
  | _ => true

/-- R69: of the responses to a boundary the table's and the receiver's alone write the table and the records, and raise ORDER and
ENTRY_CLOSED. -/
theorem respondBoundary_leavesOrders {p : Part} (hp : leavesOrders p = true) :
    (respondBoundary b p u).orders = u.orders ∧ (respondBoundary b p u).table = u.table
      ∧ ∀ k, k ≠ .rebased → (Latched k (respondBoundary b p u) ↔ Latched k u) := by
  have hquiet : ∀ {fs : List Field} {v : State}, Touches fs u v → fs ⊆ [.heat, .trains, .dispatch] →
      v.orders = u.orders ∧ v.table = u.table ∧ ∀ k, k ≠ .rebased → (Latched k v ↔ Latched k u) := fun {fs v} hf hfs =>
    have hg : Touches [.heat, .trains, .dispatch] u v := hf.mono hfs
    ⟨hg.get .orders, hg.get .table, fun k _ => latched_of_port (congrArg Port.latched (hg.get .port)) k⟩
  cases p with
  | accountClose =>
    exact ⟨(accountClose_touches u).get .orders, (accountClose_touches u).get .table, fun k hk => accountClose_latched_other hk u⟩
  | projectionBoundary =>
    exact ⟨(basisChange_touches u).get .orders, (basisChange_touches u).get .table,
      fun k _ => latched_of_port (basisChangeAt_latched _ u) k⟩
  | storesLoss => exact hquiet (storesLoss_touches u) (by decide)
  | dispatchClose => exact hquiet (dispatchClose_touches u _) (by decide)
  | trainsDay => exact hquiet (trainsDay_touches u b) (by decide)
  | tableBoundary | ordersBoundary => cases hp
  | _ => exact ⟨rfl, rfl, fun _ _ => .rfl⟩

theorem respondBoundary_sameChecked (h : b.ended < b.begun) (p : Part) :
    SameChecked b.ended b.begun u (respondBoundary b p u) := by
  by_cases hp : leavesOrders p = true
  · obtain ⟨ho, ht, hl⟩ := respondBoundary_leavesOrders b u hp
    exact .of_touches ho ht (hl _ (by decide))
  · cases p with
    | tableBoundary => exact tableBoundary_sameChecked h u
    | ordersBoundary => exact ordersBoundary_sameChecked u
    | _ => exact absurd rfl hp

/-- A direction without an unbacked activation stays so. -/
theorem respondBoundary_backed (h : b.ended < b.begun) (p : Part) :
    Kept (fun u => ∀ d, unbackedIn b.begun u d = false) (respondBoundary b p) := by
  intro u hu d
  by_cases hp : leavesOrders p = true
  · obtain ⟨ho, ht, -⟩ := respondBoundary_leavesOrders b u hp
    rw [unbackedIn_of_eq ho ht]; exact hu d
  · cases p with
    | tableBoundary => exact (tableBoundary_unbackedIn h u d).trans (hu d)
    | ordersBoundary => exact ordersBoundary_backed u d
    | _ => exact absurd rfl hp

end

end Sys2Proof.Machine
end

section
/-! SUPPORT. O42: the dispatcher's closing, the records, the table and the notices after a boundary in any order of responses (R69). -/

namespace Sys2Proof.Machine

set_option Elab.async false

/-! ### The run -/

section
variable {order : List Part} {b : Turn} (s : State)

theorem boundaryRun_sameClosed : SameClosed b.ended s (run (respondBoundary b) (boundaryOrder order) s) :=
  run_rel SameClosed.refl (fun _ _ _ => SameClosed.trans) _ (fun p _ u => respondBoundary_sameClosed b u p) s

/-- A block that does not respond to boundaries keeps every law at one. -/
theorem respondBoundary_kept_of_turn {P : State → Prop} (h : ∀ p, Kept P (turnResponse b p)) (p : Part) :
    Kept P (respondBoundary b p) := by
  cases hp : answersSecond p with
  | false => exact fun u hu => turnResponse_boundary hp b u ▸ h p u hu
  | true =>
    cases p with
    | accountSecond | storesSecond | trainsSecond | dispatchSecond | ordersSecond | supervisionSecond | clockSecond =>
      exact fun _ hu => hu
    | _ => cases hp

/-- R146, R162: after a boundary the interval that ended is closed everywhere. -/
theorem boundaryRun_closed : DispatchClosed b.ended (run (respondBoundary b) (boundaryOrder order) s)
    ∧ recordsClosed b.ended (run (respondBoundary b) (boundaryOrder order) s) :=
  ⟨run_establishes ((mem_boundaryOrder order .dispatchClose).mpr rfl) (nodup_boundaryOrder order)
      (fun u => dispatchClose_interval u _) (respondBoundary_kept_of_turn turnResponse_dispatchClosed) s,
    run_establishes ((mem_boundaryOrder order .ordersBoundary).mpr rfl) (nodup_boundaryOrder order)
      (fun u => ordersBoundary_closed _ _ u) (respondBoundary_kept_of_turn turnResponse_recordsClosed) s⟩

theorem boundaryRun_dispatch :
    (run (respondBoundary b) (boundaryOrder order) s).dispatch = s.dispatch.shut b.ended := by
  rw [← Dispatch.shut_of_closed b.ended (boundaryRun_closed (order := order) (b := b) s).1]
  exact (boundaryRun_sameClosed s).dispatch

theorem boundaryRun_figures (d : Dir) :
    ((run (respondBoundary b) (boundaryOrder order) s).act d).figures = ((s.act d).shut b.ended).figures := by
  rw [← Activation.shut_of_closed b.ended ((boundaryRun_closed (order := order) (b := b) s).2 d)]
  exact (boundaryRun_sameClosed s).figures d

/-- R162: ORDER_SHORT is raised exactly where a record that closes was short. -/
theorem boundaryRun_orderShort : Latched .orderShort (run (respondBoundary b) (boundaryOrder order) s) ↔
    Latched .orderShort s ∨ ∃ d, (s.act d).closesShort b.ended s.limits.curtailTol := by
  refine Iff.trans (iff_of_eq (or_iff_left ?_).symm.eq) (boundaryRun_sameClosed (order := order) s).short
  exact fun ⟨d, h, _⟩ => h ((boundaryRun_closed (order := order) (b := b) s).2 d)

section
variable (h : b.ended < b.begun)
include h

theorem boundaryRun_sameChecked : SameChecked b.ended b.begun s (run (respondBoundary b) (boundaryOrder order) s) :=
  run_rel SameChecked.refl (fun _ _ _ => SameChecked.trans) _ (fun p _ u => respondBoundary_sameChecked b u h p) s

theorem boundaryRun_backed (d : Dir) : unbackedIn b.begun (run (respondBoundary b) (boundaryOrder order) s) d = false := by
  have hchecked : ∀ u d, unbackedIn b.begun (respondBoundary b .ordersBoundary u) d = false := fun u d =>
    ordersBoundary_backed (m := b.ended) u d
  exact run_establishes (f := respondBoundary b) (P := fun u => ∀ d, unbackedIn b.begun u d = false)
    ((mem_boundaryOrder order .ordersBoundary).mpr rfl) (nodup_boundaryOrder order) hchecked
    (fun p => respondBoundary_backed b h p) s d

/-- R160, R162: each record after a boundary, checked and closed. -/
theorem boundaryRun_act (d : Dir) : (run (respondBoundary b) (boundaryOrder order) s).act d =
    ((s.act d).checked (unbackedIn b.begun s d)).shut b.ended := by
  have hsame := (boundaryRun_sameChecked (order := order) s h).acts d
  rw [boundaryRun_backed s h, Activation.checked_false,
    Activation.shut_of_closed _ ((boundaryRun_closed (order := order) (b := b) s).2 d)] at hsame
  exact hsame

/-- R160: ORDER is raised exactly where an activation is left without backing. -/
theorem boundaryRun_order : Latched .order (run (respondBoundary b) (boundaryOrder order) s) ↔
    Latched .order s ∨ ∃ d, unbackedIn b.begun s d = true := by
  have hsame := (boundaryRun_sameChecked (order := order) s h).order
  simpa only [boundaryRun_backed s h, Bool.false_eq_true, exists_false, or_false] using hsame

end

/-! ### The table (R64 to R68) -/

/-- Beside the table's own response the table stands, and ENTRY_CLOSED is not raised. -/
theorem respondBoundary_table {p : Part} (hp : p ≠ .tableBoundary) (u : State) :
    (respondBoundary b p u).table = u.table ∧ (Latched .entryClosed (respondBoundary b p u) ↔ Latched .entryClosed u) := by
  by_cases hl : leavesOrders p = true
  · obtain ⟨-, ht, hlatched⟩ := respondBoundary_leavesOrders b u hl
    exact ⟨ht, hlatched _ (by decide)⟩
  · cases p with
    | ordersBoundary =>
      refine ⟨(ordersBoundary_touches u _ _).get .table, (ordersBoundary_latched _ _ u _).trans ?_⟩
      simp only [reduceCtorEq, false_and, false_or]
    | tableBoundary => exact absurd rfl hp
    | _ => exact absurd rfl hl

/-- From u to v the table and ENTRY_CLOSED stand. -/
def TableStands (u v : State) : Prop := v.table = u.table ∧ (Latched .entryClosed v ↔ Latched .entryClosed u)

theorem TableStands.run {l : List Part} (h : ∀ q ∈ l, q ≠ .tableBoundary) (u : State) :
    TableStands u (run (respondBoundary b) l u) :=
  run_rel (R := TableStands) (fun _ => ⟨rfl, .rfl⟩) (fun _ _ _ h k => ⟨k.1.trans h.1, k.2.trans h.2⟩) l
    (fun q hq u => respondBoundary_table (h q hq) u) u

/-- R64: the table settles the interval that ends on the closings, wherever in the order its response is made. -/
theorem boundaryRun_table : ∃ u : State, u.limits = s.limits ∧ u.dispatch = s.dispatch.shut b.ended
    ∧ (∀ d, (u.act d).closing = ((s.act d).shut b.ended).closing) ∧ u.table = s.table
    ∧ (run (respondBoundary b) (boundaryOrder order) s).table =
        { s.table with entries := s.table.entries.map fun e => openedAt b.begun (closedAt b.ended (credited u e)) }
    ∧ (Latched .entryClosed (run (respondBoundary b) (boundaryOrder order) s) ↔
        Latched .entryClosed s ∨ ∃ e ∈ s.table.entries, e.status = .active ∧ e.last = b.ended) := by
  obtain ⟨l₁, l₂, hl, hrun⟩ := run_about (f := respondBoundary b) ((mem_boundaryOrder order .tableBoundary).mpr rfl)
    (nodup_boundaryOrder order) s
  obtain ⟨htable₁, hlatched₁⟩ := TableStands.run (b := b) (fun q hq => (hl q (List.mem_append_left _ hq)).2) s
  obtain ⟨htable₂, hlatched₂⟩ := TableStands.run (b := b) (fun q hq => (hl q (List.mem_append_right _ hq)).2)
    (respondBoundary b .tableBoundary (run (respondBoundary b) l₁ s))
  have hsame : SameClosed b.ended s (run (respondBoundary b) l₁ s) :=
    run_rel SameClosed.refl (fun _ _ _ => SameClosed.trans) _ (fun p _ u => respondBoundary_sameClosed b u p) s
  rw [hrun, htable₂, hlatched₂]
  generalize run (respondBoundary b) l₁ s = v at *
  refine ⟨takeClosings b.ended v, ?_, ?_, fun d => ?_, ?_, ?_, ?_⟩
  · exact ((takeClosings_touches v _).get .limits).trans hsame.limits
  · rw [takeClosings_dispatch, hsame.dispatch]
  · rw [takeClosings_act]; exact congrArg Prod.fst (hsame.figures d)
  · exact ((takeClosings_touches v _).get .table).trans htable₁
  · rw [← htable₁]; exact tableBoundary_table _ _ v
  · rw [← htable₁, ← hlatched₁]
    refine (tableBoundary_latched _ _ v _).trans ?_
    simp only [takeClosings_latched, reduceCtorEq, false_and, false_or, true_and, or_comm]

end

end Sys2Proof.Machine
end

section
/-! SUPPORT. O42: the figures of a boundary as the rules write them (R64 to R66, R146, R160). -/

namespace Sys2Proof.Machine

set_option Elab.async false

/-- R146: the closing figures by the sign of the scheduled energy. -/
theorem closingFigures_eq (n : Nat) (v : Dispatch) : closingFigures n v =
    { interval := n
      direction := if v.schedKj < 0 then some .charge else if 0 < v.schedKj then some .discharge else none
      scheduled := v.schedKj.natAbs
      deliveredKj := if 0 < v.schedKj then v.delKj.toNat else if v.schedKj < 0 then (-v.delKj).toNat else 0
      fraction := if v.schedKj = 0 then 1000 else
        min 1000 ((if 0 < v.schedKj then v.delKj.toNat else if v.schedKj < 0 then (-v.delKj).toNat else 0) * 1000
          / v.schedKj.natAbs) } := by
  rcases lt_trichotomy v.schedKj 0 with hs | hs | hs
  · have hn : ¬ 0 < v.schedKj := hs.le.not_gt
    simp only [closingFigures, sideOf, deliveredIn, servedFraction, hn, hs, hs.ne, if_true, if_false, reduceCtorEq]
  · simp only [closingFigures, sideOf, deliveredIn, servedFraction, hs, lt_irrefl, if_true, if_false]
  · have hn : ¬ v.schedKj < 0 := hs.le.not_gt
    simp only [closingFigures, sideOf, deliveredIn, servedFraction, hn, hs, hs.ne', if_true, if_false, reduceCtorEq]

section
variable {u : State} {e : Entry}

/-- R65: the credit of an energy entry. -/
theorem creditOf_energy {c : DispatchClosing} {l : Limits} (hc : u.dispatch.closing = c) (hl : u.limits = l) {d : Side}
    (h : e.kind.reserveDir = none) (hd : e.kind.side = d) : creditOf u e =
    if c.direction = some d then
      (e.power * l.lInt * c.fraction / 3600000, decide (c.fraction < 1000 - l.curtailTol))
    else (e.power * l.lInt / 3600, false) := by
  subst hc hl hd
  have hshort : decide (u.dispatch.closing.fraction + u.limits.curtailTol < 1000)
      = decide (u.dispatch.closing.fraction < 1000 - u.limits.curtailTol) := decide_eq_decide.mpr (by omega)
  rw [creditOf, h]
  dsimp only
  rw [energyCredit, hshort]

/-- R66: the credit of a reserve entry, with distinct ids. -/
theorem creditOf_reserve (hids : IdsDistinct u) (he : e ∈ u.table.entries) (ha : e.status = .active) {d : Dir}
    (hk : e.kind = reserveKind d) : creditOf u e =
      (shareIn ((u.act d).closing.servedKj / 3600)
          (u.table.entries.filter fun f => decide (f.kind = e.kind) && decide (f.status = .active)) e,
        (u.act d).closing.isShort u.limits.curtailTol) := by
  have hdir : e.kind.reserveDir = some d := by rw [hk]; cases d <;> rfl
  have hnamed : e ∈ u.table.entries.filter fun f => decide (f.kind = reserveKind d) && decide (f.status = .active) :=
    List.mem_filter.mpr ⟨he, by simp [hk, ha]⟩
  have hdistinct := hids.sublist ((List.filter_sublist (l := u.table.entries)
    (p := fun f => decide (f.kind = reserveKind d) && decide (f.status = .active))).map (·.id))
  rw [creditOf, hdir, hk]
  dsimp only
  rw [reserveCredit, reserveShares, energyShares_find hnamed hdistinct]

end

/-- R160: what leaves a record without backing, written out. -/
theorem unbackedIn_eq (n : Nat) (s : State) (d : Dir) : unbackedIn n s d =
    (decide ((s.act d).state = .active) && !s.table.entries.any fun e =>
      decide (e.kind = if d = .up then .reserveUp else .reserveDown) && decide (e.first ≤ n) && decide (n ≤ e.last)
        && !e.status.isClosed) := by
  have hkind : reserveKind d = if d = .up then .reserveUp else .reserveDown := by cases d <;> rfl
  simp only [unbackedIn, stillBacked, Entry.covers, hkind, Bool.and_assoc]

end Sys2Proof.Machine
end

section
open Sys2Proof Sys2Proof.Machine

set_option Elab.async false

/-- Settles O42: what the closings come to stands through every response, and once all have been made nothing is owed; the table's own
response settles the entries on those closings. -/
theorem boundarySettlesTableAndOrders : Obligations.BoundarySettlesTableAndOrders := by
  intro order s h hd hr n n' sched del delivered fresh figures closeOf short energy reserve taken settled unbacked
  have hfresh : closingFigures n s.dispatch = fresh := closingFigures_eq n s.dispatch
  have hshut : s.dispatch.shut n = if s.dispatch.closing.interval = n then s.dispatch
      else { s.dispatch with closing := fresh, schedKj := 0, delKj := 0 } := by rw [← hfresh]; rfl
  have hfigures : (s.dispatch.shut n).closing = figures := by
    rw [hshut]
    exact apply_ite Dispatch.closing _ _ _
  have hsame := boundaryRun_sameClosed (order := order) (b := turnOf s) (endInterval s)
  obtain ⟨u, hlimits, hdispatch, hacts, htable, hsettled, hclosed⟩ :=
    boundaryRun_table (order := order) (b := turnOf s) (endInterval s)
  refine ⟨_, (exec_boundary_taken s h hr).trans (congrArg _ (boundaryNow_run hd)), ?_, fun hids => ?_, hclosed, fun d => ?_, ?_,
    fun hn => ?_, hsame.patterns, hsame.assembler⟩
  · exact (boundaryRun_dispatch _).trans hshut
  · have hids' : IdsDistinct u := by rw [IdsDistinct, htable]; exact hids
    have hreserve : ∀ e ∈ s.table.entries, e.status = .active → ∀ d, e.kind = reserveKind d → creditOf u e = reserve e d := by
      intro e he ha d hk
      rw [creditOf_reserve hids' (htable ▸ he) ha hk, hacts, hlimits, htable]; rfl
    have hclosing : u.dispatch.closing = figures := (congrArg Dispatch.closing hdispatch).trans hfigures
    have henergy : ∀ e d, e.kind.reserveDir = none → e.kind.side = d → creditOf u e = energy e d := fun e d =>
      creditOf_energy hclosing hlimits
    have htaken : ∀ e ∈ s.table.entries, e.status = .active → creditOf u e = taken e := by
      intro e he ha
      have hby : taken e = match e.kind with
        | .energyCharge => energy e .charge
        | .energyDischarge => energy e .discharge
        | .reserveUp => reserve e .up
        | .reserveDown => reserve e .down := rfl
      rw [hby]
      cases hk : e.kind with
      | energyCharge | energyDischarge => exact henergy e _ (by rw [hk]; rfl) (by rw [hk]; rfl)
      | reserveUp => exact hreserve e he ha .up hk
      | reserveDown => exact hreserve e he ha .down hk
    refine hsettled.trans (congrArg (fun es => { s.table with entries := es }) (List.map_congr_left fun e he => ?_))
    by_cases ha : e.status = .active
    · rw [settled_active ha, htaken e he ha]
      exact (if_pos ha).symm
    · rw [settled_notActive ha]
      exact (if_neg ha).symm
  · have hfig := boundaryRun_figures (order := order) (b := turnOf s) (endInterval s) d
    obtain ⟨hclosing, hrest⟩ := Prod.ext_iff.mp hfig
    obtain ⟨hserved, hrequested⟩ := Prod.ext_iff.mp hrest
    exact ⟨hclosing, hserved, hrequested⟩
  · exact boundaryRun_orderShort _
  · have hbegun : (turnOf s).begun = n + 1 := Nat.mod_eq_of_lt (Nat.succ_lt_succ hn)
    have hlt : (turnOf s).ended < (turnOf s).begun := hbegun ▸ Nat.lt_succ_self n
    have hunbacked : ∀ d, unbackedIn (turnOf s).begun (endInterval s) d = unbacked d := fun d => by
      rw [hbegun]; exact unbackedIn_eq (n + 1) s d
    refine ⟨fun d => ?_, ?_⟩
    · rw [boundaryRun_act _ hlt, hunbacked]; rfl
    · rw [boundaryRun_order _ hlt]; simp only [hunbacked]; rfl

end

section
/-! SUPPORT. O19: the rows of a walk, one at a time (R80 to R85): where a row starts, what an interval moves, the trains that can serve it,
and the first test that fails; and the lowest of some rows with a property (R88, R93). -/

namespace Sys2Proof.Machine

set_option Elab.async false

/-! ### The lowest place in a list -/

/-- What is found first stands at the lowest place that qualifies. -/
theorem map_find?_eq_some_iff {α β : Type} (p : α → Bool) (f : α → β) (l : List α) (y : β) :
    (l.find? p).map f = some y ↔
      ∃ (i : Nat) (a : α), l[i]? = some a ∧ p a = true ∧ y = f a ∧ ∀ (j : Nat) (b : α), l[j]? = some b → p b = true → i ≤ j := by
  constructor
  · intro h
    obtain ⟨a, ha, rfl⟩ := Option.map_eq_some_iff.mp h
    obtain ⟨hp, i, hi, rfl, hlow⟩ := List.find?_eq_some_iff_getElem.mp ha
    refine ⟨i, l[i], List.getElem?_eq_getElem hi, hp, rfl, fun j b hj hb => Nat.le_of_not_lt fun hlt => ?_⟩
    have hnot := hlow j hlt
    rw [List.getElem?_eq_getElem (hlt.trans hi), Option.some.injEq] at hj
    simp [hj, hb] at hnot
  · rintro ⟨i, a, ha, hp, rfl, hlow⟩
    obtain ⟨hi, rfl⟩ := List.getElem?_eq_some_iff.mp ha
    refine Option.map_eq_some_iff.mpr ⟨l[i], List.find?_eq_some_iff_getElem.mpr ⟨hp, i, hi, rfl, fun j hj => ?_⟩, rfl⟩
    by_contra hn
    have := hlow j l[j] (List.getElem?_eq_getElem (hj.trans hi)) (by simpa using hn)
    omega

theorem numbered_getElem? : ∀ (lo : Nat) (rs : List Row) (i : Nat), (numbered lo rs)[i]? = rs[i]?.map (lo + i, ·)
  | _, [], i => by simp [numbered]
  | lo, r :: rs, 0 => by simp [numbered]
  | lo, r :: rs, i + 1 => by
    simp only [numbered, List.getElem?_cons_succ, numbered_getElem? (lo + 1) rs i]
    rw [Nat.add_right_comm, Nat.add_assoc]

theorem mem_numbered {lo k : Nat} {rs : List Row} {r : Row} :
    (k, r) ∈ numbered lo rs ↔ lo ≤ k ∧ rs[k - lo]? = some r := by
  simp only [List.mem_iff_getElem?, numbered_getElem?, Option.map_eq_some_iff, Prod.mk.injEq]
  constructor
  · rintro ⟨i, r', hr, rfl, rfl⟩
    exact ⟨Nat.le_add_right .., by rwa [Nat.add_sub_cancel_left]⟩
  · rintro ⟨hk, hr⟩
    exact ⟨k - lo, r, hr, Nat.add_sub_cancel' hk, rfl⟩

/-! ### The trains of a row (R82) -/

/-- R82: the shortest sufficient run of the trains in rank order is the run the walk takes. -/
theorem shortestRun_leading (cap : TrainIx → Nat) : ∀ (need : Nat) (ts : List TrainIx),
    LeadingRun cap ts need (shortestRun cap need ts)
  | need, [] => ⟨0, by simp [shortestRun]⟩
  | need, t :: ts => by
    unfold shortestRun; split
    next h => exact ⟨0, by simp [h]⟩
    next h =>
      obtain ⟨k, hk, htake, hsum, hless⟩ := shortestRun_leading cap (need - cap t) ts
      refine ⟨k + 1, by simpa using hk, by rw [List.take_succ_cons, ← htake], ?_, ?_⟩
      · refine hsum.imp (fun hs => ?_) (fun hs => by rw [hs])
        rw [sumOver, List.map_cons, List.sum_cons]
        exact Nat.sub_le_iff_le_add'.mp hs
      · intro j hj
        cases j with
        | zero => simpa [sumOver] using Nat.pos_of_ne_zero h
        | succ j =>
          have := hless j (Nat.lt_of_succ_lt_succ hj)
          simp only [List.take_succ_cons, sumOver, List.map_cons, List.sum_cons] at this ⊢
          omega

theorem projectable_eq (st : TrainState) :
    st.projectable = !(decide (st = .outOfService) || decide (st = .tripped) || decide (st = .lockedOut)) := by
  cases st <;> rfl

theorem startTime_eq (p : TrainParams) (c : TrainClass) : startTime p c = if c = .hot then p.startHot else p.startCold := by
  cases c <;> rfl

theorem sideOf_neg {net : Int} (h : net < 0) : sideOf net = some .charge := by
  unfold sideOf; rw [if_neg (by omega), if_pos h]

theorem sideOf_pos {net : Int} (h : 0 < net) : sideOf net = some .discharge := if_pos h

theorem sideOf_zero : sideOf 0 = none := rfl

/-! ### An interval's movement (R83, R84) -/

section
variable (w : WalkInputs) (c : Carried) (net : Int)

theorem movedMass_eq : movedMass w c net = min 100000000
    (if net < 0 then c.mass + net.natAbs * w.limits.lInt / workC w.limits c.p
      else if 0 < net then c.mass - ceilDiv (net.natAbs * w.limits.lInt) (workE w.limits c.p)
      else c.mass) := by
  rcases lt_trichotomy net 0 with h | rfl | h
  · simp only [movedMass, sideOf_neg h, if_pos h]
  · rfl
  · simp only [movedMass, sideOf_pos h, if_neg (asymm h), if_pos h]

theorem movedHeat_eq : movedHeat w c net =
    if net < 0 then (c.heat : Int) + ((net.natAbs * w.limits.lInt * w.limits.hC / 1000000 : Nat) : Int)
    else if 0 < net then (c.heat : Int) - ((ceilDiv (net.natAbs * w.limits.lInt * w.limits.hE) 1000000 : Nat) : Int)
    else c.heat := by
  rcases lt_trichotomy net 0 with h | rfl | h
  · simp only [movedHeat, sideOf_neg h, if_pos h]
  · rfl
  · simp only [movedHeat, sideOf_pos h, if_neg (asymm h), if_pos h]

end

/-! ### The tests of a row (R85) -/

/-- The verdict of the first test that fails, or OK. -/
def firstFailing (tests : List (Bool × Verdict)) : Verdict := ((tests.find? (·.1)).map (·.2)).getD .ok

@[simp] theorem firstFailing_nil : firstFailing [] = .ok := rfl

@[simp] theorem firstFailing_cons (test : Bool × Verdict) (tests : List (Bool × Verdict)) :
    firstFailing (test :: tests) = if test.1 then test.2 else firstFailing tests := by
  obtain ⟨b, v⟩ := test
  cases b <;> rfl

/-- R85 test 5 on one end pressure. -/
def rateTest (w : WalkInputs) (start p : Nat) : Bool × Verdict :=
  (decide (w.limits.dpMax < ((p : Int) - start).natAbs), .rate (if start < p then .rising else .falling))

theorem rateBreak_eq (w : WalkInputs) (start p : Nat) : rateBreak w start p =
    if (rateTest w start p).1 then some (if start < p then .rising else .falling) else none := by
  simp only [rateBreak, rateTest, decide_eq_true_eq, gt_iff_lt]

theorem rateTest_verdict (w : WalkInputs) (start p : Nat) :
    (rateTest w start p).2 = .rate (if start < p then .rising else .falling) := rfl

/-- R85: the tests in their order. -/
def rowTests (w : WalkInputs) (j : Judged) : List (Bool × Verdict) :=
  [(decide (j.net < 0 ∧ j.capC < j.net.natAbs ∨ 0 < j.net ∧ j.capE < j.net.natAbs), .capability),
   (decide ((if j.net < 0 then (j.net.natAbs : Int) else (j.quickE : Int) - j.net) < j.resUp), .headroom .up),
   (decide ((if 0 < j.net then (j.net.natAbs : Int) else (j.quickC : Int) - j.net.natAbs) < j.resDn), .headroom .down),
   (decide (w.limits.pMax < j.sched.p ∨ w.limits.pMax < j.down.p), .pressureHigh),
   (decide (j.sched.p < w.limits.pMin ∨ j.up.p < w.limits.pMin), .pressureLow),
   rateTest w j.pStart j.sched.p, rateTest w j.pStart j.up.p, rateTest w j.pStart j.down.p,
   (decide ((w.poolCapacity : Int) < j.sched.heat ∨ (w.poolCapacity : Int) < j.down.heat), .heatFull),
   (decide (j.sched.heat < 0 ∨ j.up.heat < 0), .heatShort)]

theorem verdictOf_eq (w : WalkInputs) (j : Judged) : verdictOf w j = firstFailing (rowTests w j) := by
  have hup : (j.net < 0 ∧ j.net.natAbs < j.resUp) ∨ (0 ≤ j.net ∧ (j.quickE : Int) - j.net < j.resUp) ↔
      (if j.net < 0 then (j.net.natAbs : Int) else (j.quickE : Int) - j.net) < j.resUp := by
    split <;> omega
  have hdown : (0 < j.net ∧ j.net < j.resDn) ∨ (j.net ≤ 0 ∧ (j.quickC : Int) - j.net.natAbs < j.resDn) ↔
      (if 0 < j.net then (j.net.natAbs : Int) else (j.quickC : Int) - j.net.natAbs) < j.resDn := by
    split <;> omega
  unfold verdictOf rowTests
  simp only [firstFailing_cons, firstFailing_nil, decide_eq_true_eq, rateBreak_eq]
  refine if_congr Iff.rfl rfl (if_congr hup rfl (if_congr hdown rfl (if_congr Iff.rfl rfl (if_congr Iff.rfl rfl ?_))))
  cases hs : (rateTest w j.pStart j.sched.p).1 with
  | true => simp [rateTest_verdict]
  | false =>
    cases hu : (rateTest w j.pStart j.up.p).1 with
    | true => simp [rateTest_verdict]
    | false =>
      cases hd : (rateTest w j.pStart j.down.p).1 with
      | true => simp [rateTest_verdict]
      | false => simp

/-! ### One row (R81 to R85) -/

/-- A row computed from where it starts follows the rules. -/
theorem computeRow_follows (w : WalkInputs) (included : List Entry) (k : Nat) (c : Carried) :
    RowFollows w included c.heat (computeRow w included k c) := by
  unfold RowFollows
  intro l sum tp state available start quick mass p heatEnd net size up down full rate tests
  have havailable : ∀ d, walkAvailable w d = available d := fun d =>
    List.filter_congr fun x _ => projectable_eq _
  have hquick : ∀ d, quickCapability w net d = quick d (walkCommitted w net) := fun d => by
    unfold quickCapability
    rw [havailable]
    refine congrArg (sumOver tp) (List.filter_congr fun x _ => ?_)
    rw [startsQuickly, startTime_eq, List.contains_eq_mem]
  have hmass : ∀ z, (moved w c z).mass = mass z := fun z => movedMass_eq w c z
  have hp : ∀ z, (moved w c z).p = p z := fun z => by
    rw [moved]
    exact congrArg (pressureFromMass l · w.tdk) (hmass z)
  have hheat : ∀ z, (moved w c z).heat = heatEnd z := fun z => by
    rw [moved]
    exact congrArg (afterLoss w) (movedHeat_eq w c z)
  refine ⟨rfl, rfl, rfl, rfl, rfl, congrArg (sumOver tp) (havailable _), congrArg (sumOver tp) (havailable _),
    ⟨walkCommitted w net, fun h => ?_, fun d hd => ?_, hquick _, hquick _⟩, hmass _, hp _, hheat _, ?_⟩
  · rw [h]; rfl
  · have hside : sideOf net = some d := by
      rcases hd with ⟨h, rfl⟩ | ⟨h, rfl⟩
      · exact sideOf_neg h
      · exact sideOf_pos h
    have hcommitted : walkCommitted w net = shortestRun tp net.natAbs
        (byRank (fun x => (w.trains.get x).rank) (available d)) := by
      rw [walkCommitted, hside, ← havailable]; rfl
    rw [hcommitted]
    exact shortestRun_leading _ _ _
  · refine (verdictOf_eq w _).trans ?_
    simp only [rowTests, hp, hheat]
    rfl

/-! ### The rows of a pass and of a trial (R79, R80, R92) -/

section
variable (w : WalkInputs) (included : List Entry)

theorem rowsFrom_length : ∀ (n k : Nat) (c : Carried), (rowsFrom w included k n c).length = n
  | 0, _, _ => rfl
  | n + 1, k, _ => congrArg (· + 1) (rowsFrom_length n (k + 1) _)

theorem rowsFrom_zero {n k : Nat} {c : Carried} {r : Row} (h : (rowsFrom w included k n c)[0]? = some r) :
    r = computeRow w included k c := by
  cases n with
  | zero => exact absurd h nofun
  | succ n => exact (Option.some.inj h).symm

/-- R80: a later row starts from the end of the row before it. -/
theorem rowsFrom_succ : ∀ {n k i : Nat} {c : Carried} {q r : Row}, (rowsFrom w included k n c)[i]? = some q →
    (rowsFrom w included k n c)[i + 1]? = some r → r = computeRow w included (k + (i + 1)) (carriedFrom w q)
  | 0, _, _, _, _, _, _, h => nomatch h
  | n + 1, k, 0, _, q, r, hq, h => by
    obtain rfl := Option.some.inj hq
    exact rowsFrom_zero w included (n := n) (by simpa [rowsFrom] using h)
  | n + 1, k, i + 1, c, q, r, hq, h => by
    have ih := rowsFrom_succ (n := n) (k := k + 1) (i := i) (c := carriedFrom w (computeRow w included k c)) (q := q) (r := r)
      (by simpa [rowsFrom] using hq) (by simpa [rowsFrom] using h)
    rwa [Nat.add_right_comm] at ih

/-- R80: what row k starts from, after the rows before it. -/
def carriedAt (before : List Row) : Nat → Carried
  | 0 => firstCarried w
  | k + 1 => carriedFrom w (before.getD k Row.blank)

/-- R79, R80: rows computed from position lo on, after lo rows that stand, follow the rules. -/
theorem rowsFrom_follow (before : List Row) {lo : Nat} (hlo : lo < 192) (hlen : before.length = lo) :
    RowsFollow w included lo (before ++ rowsFrom w included lo (192 - lo) (carriedAt w before lo)) := by
  refine ⟨by rw [List.length_append, rowsFrom_length, hlen]; omega, fun k r hk hr => ?_⟩
  obtain ⟨i, rfl⟩ := Nat.exists_eq_add_of_le hk
  have hrow : ∀ j, (before ++ rowsFrom w included lo (192 - lo) (carriedAt w before lo))[lo + j]? =
      (rowsFrom w included lo (192 - lo) (carriedAt w before lo))[j]? := fun j => by
    rw [List.getElem?_append_right (by omega), hlen, Nat.add_sub_cancel_left]
  rw [hrow] at hr
  cases i with
  | zero =>
    obtain rfl := rowsFrom_zero w included hr
    cases lo with
    | zero => exact ⟨rfl, fun _ => ⟨rfl, rfl, computeRow_follows w included 0 (firstCarried w)⟩, fun _ h => absurd h (by omega)⟩
    | succ j =>
      refine ⟨rfl, fun h => absurd h (by omega), fun q _ hq => ?_⟩
      rw [Nat.add_zero, Nat.add_sub_cancel, List.getElem?_append_left (by omega)] at hq
      have hcarried : carriedAt w before (j + 1) = carriedFrom w q := by
        rw [carriedAt, List.getD_eq_getElem?_getD, hq]; rfl
      rw [hcarried]
      exact ⟨rfl, rfl, computeRow_follows w included _ (carriedFrom w q)⟩
  | succ i =>
    have hlt : i < (rowsFrom w included lo (192 - lo) (carriedAt w before lo)).length := by
      have := (List.getElem?_eq_some_iff.mp hr).1; omega
    obtain rfl := rowsFrom_succ w included (List.getElem?_eq_getElem hlt) hr
    refine ⟨rfl, fun h => absurd h (by omega), fun q _ hq => ?_⟩
    have hprev : lo + (i + 1) - 1 = lo + i := by omega
    rw [hprev, hrow, List.getElem?_eq_getElem hlt] at hq
    obtain rfl := Option.some.inj hq
    exact ⟨rfl, rfl, computeRow_follows w included _ (carriedFrom w _)⟩

theorem passRows_follow : RowsFollow w included 0 (passRows w included) :=
  rowsFrom_follow w included [] (by decide) rfl

theorem trialRows_eq (rows : List Row) (c : Candidate) : trialRows w rows c included =
    rowsFrom w included (c.entry.first - w.base) (192 - (c.entry.first - w.base))
      (carriedAt w rows (c.entry.first - w.base)) := by
  unfold trialRows trialFirstRow
  cases c.entry.first - w.base with
  | zero => rfl
  | succ j => rw [Nat.succ_sub_succ]; rfl

/-- What row k starts from reads the rows before it alone. -/
theorem carriedAt_take (rows : List Row) (k : Nat) : carriedAt w (rows.take k) k = carriedAt w rows k := by
  cases k with
  | zero => rfl
  | succ j => simp [carriedAt, List.getD_eq_getElem?_getD]

end

/-- R93: a trial is refused by the lowest row it computes that refuses the candidate. -/
theorem trialJudgement_eq_some_iff (w : WalkInputs) (rows : List Row) (c : Candidate) (included : List Entry) (risk : Risk) :
    trialJudgement w rows c included = some risk ↔ ∃ i r, (trialRows w rows c included)[i]? = some r
      ∧ rowRefuses w.base c rows (trialFirstRow w.base c + i) r = true ∧ risk = ⟨r.verdict, r.interval⟩
      ∧ ∀ j q, (trialRows w rows c included)[j]? = some q →
        rowRefuses w.base c rows (trialFirstRow w.base c + j) q = true → i ≤ j := by
  unfold trialJudgement
  rw [map_find?_eq_some_iff]
  simp only [numbered_getElem?, Option.map_eq_some_iff]
  constructor
  · rintro ⟨i, _, ⟨r, hr, rfl⟩, hrefuses, hrisk, hlow⟩
    exact ⟨i, r, hr, hrefuses, hrisk, fun j q hq => hlow j _ ⟨q, hq, rfl⟩⟩
  · rintro ⟨i, r, hr, hrefuses, hrisk, hlow⟩
    refine ⟨i, _, ⟨r, hr, rfl⟩, hrefuses, hrisk, ?_⟩
    rintro j _ ⟨q, hq, rfl⟩
    exact hlow j q hq

theorem trialJudgement_eq_none_iff (w : WalkInputs) (rows : List Row) (c : Candidate) (included : List Entry) :
    trialJudgement w rows c included = none ↔ ∀ i r, (trialRows w rows c included)[i]? = some r →
      ¬ rowRefuses w.base c rows (trialFirstRow w.base c + i) r = true := by
  unfold trialJudgement
  rw [Option.map_eq_none_iff, List.find?_eq_none]
  constructor
  · intro hnone i r hr
    exact hnone (_, r) (List.mem_iff_getElem?.mpr ⟨i, by rw [numbered_getElem?, hr]; rfl⟩)
  · rintro hnone ⟨k, r⟩ hmem
    obtain ⟨hk, hr⟩ := mem_numbered.mp hmem
    have hrow := hnone _ r hr
    rwa [Nat.add_sub_cancel' hk] at hrow

theorem rowRefuses_iff (base : Nat) (c : Candidate) {old : List Row} {k : Nat} (hk : k < old.length) (r : Row) :
    rowRefuses base c old k r = true ↔
      r.verdict ≠ .ok ∧ (base + k ≤ c.entry.last ∨ ∃ q, old[k]? = some q ∧ q.verdict = .ok) := by
  simp [rowRefuses, List.getD_eq_getElem?_getD, List.getElem?_eq_getElem hk]

section
variable {w : WalkInputs} {rows : List Row} {c : Candidate} {included : List Entry}

/-- R92, R93: the rows that refuse a candidate, each at its place in the table the trial would leave. -/
theorem trialRefuses_iff (hrows : rows.length = 192) (hfirst : c.entry.first ≤ w.base + 191) (k : Nat) (r : Row) :
    (c.entry.first - w.base ≤ k ∧ (rows.take (c.entry.first - w.base) ++ trialRows w rows c included)[k]? = some r
      ∧ r.verdict ≠ .ok ∧ (w.base + k ≤ c.entry.last ∨ ∃ q, rows[k]? = some q ∧ q.verdict = .ok)) ↔
    ∃ i, k = c.entry.first - w.base + i ∧ (trialRows w rows c included)[i]? = some r
      ∧ rowRefuses w.base c rows (trialFirstRow w.base c + i) r = true := by
  have hlen : (trialRows w rows c included).length = 192 - (c.entry.first - w.base) := by rw [trialRows_eq, rowsFrom_length]
  have hplace : ∀ i, (rows.take (c.entry.first - w.base) ++ trialRows w rows c included)[c.entry.first - w.base + i]? =
      (trialRows w rows c included)[i]? := fun i => by
    rw [List.getElem?_append_right (by simp), List.length_take_of_le (by omega), Nat.add_sub_cancel_left]
  have hrow : ∀ i, (trialRows w rows c included)[i]? = some r →
      (rowRefuses w.base c rows (trialFirstRow w.base c + i) r = true ↔ r.verdict ≠ .ok
        ∧ (w.base + (c.entry.first - w.base + i) ≤ c.entry.last
          ∨ ∃ q, rows[c.entry.first - w.base + i]? = some q ∧ q.verdict = .ok)) := fun i hr =>
    rowRefuses_iff w.base c (k := c.entry.first - w.base + i)
      (by have := (List.getElem?_eq_some_iff.mp hr).1; omega) r
  constructor
  · rintro ⟨hk, hr, hrefuses⟩
    obtain ⟨i, rfl⟩ := Nat.exists_eq_add_of_le hk
    rw [hplace] at hr
    exact ⟨i, rfl, hr, (hrow i hr).mpr hrefuses⟩
  · rintro ⟨i, rfl, hr, hrefuses⟩
    exact ⟨Nat.le_add_right .., (hplace i).trans hr, (hrow i hr).mp hrefuses⟩

end

end Sys2Proof.Machine
end

section
open Sys2Proof Sys2Proof.Machine

set_option Elab.async false

/-- Settles O19: the rows follow one from the other, and what is found first is lowest. -/
theorem walkRowsFollowTheRules : Obligations.WalkRowsFollowTheRules := by
  refine ⟨passRows_follow, fun w rows c included hrows hfirst => ?_⟩
  intro j fresh refuses
  have hrefuses : ∀ k r, refuses k r ↔ _ := trialRefuses_iff (included := included) hrows hfirst
  refine ⟨?_, ⟨fun hnone k r hk => ?_, fun hnone => (trialJudgement_eq_none_iff ..).mpr fun i r hr hrow => ?_⟩,
    fun risk => (trialJudgement_eq_some_iff ..).trans ?_⟩
  · have hfollow := rowsFrom_follow w included (rows.take j) (lo := j) (by omega) (List.length_take_of_le (by omega))
    rwa [carriedAt_take, ← trialRows_eq] at hfollow
  · obtain ⟨i, rfl, hr, hrow⟩ := (hrefuses k r).mp hk
    exact (trialJudgement_eq_none_iff ..).mp hnone i r hr hrow
  · exact hnone _ r ((hrefuses _ r).mpr ⟨i, rfl, hr, hrow⟩)
  · constructor
    · rintro ⟨i, r, hr, hrow, hrisk, hlow⟩
      refine ⟨j + i, r, (hrefuses _ r).mpr ⟨i, rfl, hr, hrow⟩, hrisk, fun k q hk => ?_⟩
      obtain ⟨i', rfl, hq, hrow'⟩ := (hrefuses k q).mp hk
      exact Nat.add_le_add_left (hlow i' q hq hrow') j
    · rintro ⟨k, r, hk, hrisk, hlow⟩
      obtain ⟨i, rfl, hr, hrow⟩ := (hrefuses k r).mp hk
      exact ⟨i, r, hr, hrow, hrisk, fun i' q hq hrow' =>
        Nat.le_of_add_le_add_left (hlow _ q ((hrefuses _ q).mpr ⟨i', rfl, hq, hrow'⟩))⟩

end

section
/-! SUPPORT. O28: the demotion loop (R86 to R89): the search of one pass, the run of the passes, and the outcome. -/

namespace Sys2Proof.Machine

set_option Elab.async false

/-! ### The candidate of a row (R86, R87) -/

theorem mem_feedingKinds (r : Row) (k : EntryKind) : feeds r k = true ↔ k ∈ feedingKinds r := by
  cases hv : r.verdict with
  | rate d => cases d <;> simp [feeds, feedingKinds, hv]
  | headroom d => cases d <;> simp [feeds, feedingKinds, hv]
  | capability =>
    rcases lt_trichotomy r.netKw 0 with h | h | h
    · simp [feeds, feedingKinds, hv, h, asymm h]
    · simp [feeds, feedingKinds, hv, h]
    · simp [feeds, feedingKinds, hv, h, asymm h]
  | _ => simp [feeds, feedingKinds, hv]

theorem firstDemoted_none {es : List Entry} : firstDemoted es = none ↔ es = [] := by
  cases es with
  | nil => simp [firstDemoted]
  | cons x xs =>
    unfold firstDemoted
    split
    · simp
    · split <;> simp

/-- R87: of some entries the one demoted first is of the lowest price, and of the highest seq among equal prices. -/
theorem firstDemoted_first : ∀ {es : List Entry} {e : Entry}, firstDemoted es = some e →
    e ∈ es ∧ ∀ f ∈ es, e.price < f.price ∨ e.price = f.price ∧ f.seq ≤ e.seq
  | [], _, h => nomatch h
  | x :: xs, e, h => by
    unfold firstDemoted at h
    cases hx : firstDemoted xs with
    | none =>
      have hxs : xs = [] := firstDemoted_none.mp hx
      simp only [hx, Option.some.injEq] at h
      subst h hxs
      simp
    | some y =>
      obtain ⟨hmem, hfirst⟩ := firstDemoted_first hx
      simp only [hx] at h
      have hbefore : demotedBefore y x = true ↔ y.price < x.price ∨ y.price = x.price ∧ x.seq < y.seq := by simp [demotedBefore]
      split at h
      next hb =>
        obtain rfl := Option.some.inj h
        refine ⟨List.mem_cons_of_mem _ hmem, List.forall_mem_cons.mpr ⟨?_, hfirst⟩⟩
        have := hbefore.mp hb
        omega
      next hb =>
        obtain rfl := Option.some.inj h
        have hnot := mt hbefore.mpr hb
        refine ⟨List.mem_cons_self, List.forall_mem_cons.mpr ⟨.inr ⟨rfl, le_rfl⟩, fun f hf => ?_⟩⟩
        have := hfirst f hf
        omega

section
variable {w : WalkInputs} {included : List Entry} {r : Row}

theorem mem_candidates (e : Entry) : (e ∈ included.filter fun e =>
    e.status.isOpen && e.covers r.interval && feeds r e.kind && !e.covers w.base) ↔ MayExclude w included r e := by
  simp only [List.mem_filter, Bool.and_eq_true, mem_feedingKinds, Bool.not_eq_true', MayExclude, and_assoc]

theorem demotionCandidate_none : demotionCandidate w included r = none ↔ ∀ e, ¬ MayExclude w included r e := by
  simp only [demotionCandidate, firstDemoted_none, List.eq_nil_iff_forall_not_mem, mem_candidates]

theorem demotionCandidate_some {e : Entry} (h : demotionCandidate w included r = some e) : MayExclude w included r e
    ∧ ∀ f, MayExclude w included r f → e.price < f.price ∨ e.price = f.price ∧ f.seq ≤ e.seq := by
  obtain ⟨hmem, hfirst⟩ := firstDemoted_first h
  exact ⟨(mem_candidates e).mp hmem, fun f hf => hfirst f ((mem_candidates f).mpr hf)⟩

end

/-! ### The search of one pass (R86) -/

/-- Of some numbered rows, row k is one that the search may stop at: failing and unmarked. -/
def Pending (marks : List Nat) (l : List (Nat × Row)) (k : Nat) (r : Row) : Prop :=
  (k, r) ∈ l ∧ r.verdict ≠ .ok ∧ k ∉ marks

theorem pending_numbered (marks : List Nat) (rows : List Row) (k : Nat) (r : Row) :
    Pending marks ((numbered 0 rows).drop 1) k r ↔ Searched marks rows k r := by
  have hdrop : (numbered 0 rows).drop 1 = numbered 1 (rows.drop 1) := by cases rows <;> rfl
  rw [Pending, hdrop, mem_numbered, Searched, List.getElem?_drop, and_assoc]
  exact and_congr_right fun hk => by rw [Nat.add_sub_cancel' hk]

theorem numbered_pairwise (lo : Nat) (rs : List Row) : (numbered lo rs).Pairwise fun a b => a.1 < b.1 := by
  induction rs generalizing lo with
  | nil => exact .nil
  | cons r rs ih =>
    refine List.pairwise_cons.mpr ⟨fun ⟨k, q⟩ h => ?_, ih (lo + 1)⟩
    exact (mem_numbered.mp h).1

/-- R86: where a search ends: the lowest row that has a candidate, with the pending rows below it marked; or nowhere, with all of them
marked. -/
def SearchEnds (w : WalkInputs) (included : List Entry) (l : List (Nat × Row)) (marks : List Nat) :
    List Nat × Option (Entry × Risk) → Prop
  | (marks', none) => (∀ k r, Pending marks l k r → demotionCandidate w included r = none)
      ∧ ∀ j, j ∈ marks' ↔ j ∈ marks ∨ ∃ r, Pending marks l j r
  | (marks', some (e, risk)) => ∃ k r, Pending marks l k r ∧ demotionCandidate w included r = some e
      ∧ risk = ⟨r.verdict, r.interval⟩
      ∧ (∀ j q, j < k → Pending marks l j q → demotionCandidate w included q = none)
      ∧ ∀ j, j ∈ marks' ↔ j ∈ marks ∨ j < k ∧ ∃ q, Pending marks l j q

section
variable {w : WalkInputs} {included : List Entry}

/-- A row that the search passes by is as if it were not there. -/
theorem SearchEnds.skip {l : List (Nat × Row)} {marks : List Nat} {k : Nat} {r : Row} (h : r.verdict = .ok ∨ k ∈ marks)
    {found : List Nat × Option (Entry × Risk)} (hends : SearchEnds w included l marks found) :
    SearchEnds w included ((k, r) :: l) marks found := by
  have hpending : ∀ j q, Pending marks ((k, r) :: l) j q ↔ Pending marks l j q := fun j q => by
    simp only [Pending, List.mem_cons, Prod.mk.injEq, or_and_right, or_iff_right_iff_imp]
    rintro ⟨⟨rfl, rfl⟩, hfails, hunmarked⟩
    exact (h.elim hfails hunmarked).elim
  obtain ⟨marks', _ | ⟨e, risk⟩⟩ := found <;> simpa only [SearchEnds, hpending] using hends

/-- A row without a candidate is marked, and the search goes on. -/
theorem SearchEnds.mark {l : List (Nat × Row)} {marks : List Nat} {k : Nat} {r : Row} (hfails : r.verdict ≠ .ok)
    (hunmarked : k ∉ marks) (hlow : ∀ x ∈ l, k < x.1) (hnone : demotionCandidate w included r = none)
    {found : List Nat × Option (Entry × Risk)} (hends : SearchEnds w included l (marks ++ [k]) found) :
    SearchEnds w included ((k, r) :: l) marks found := by
  have hpending : ∀ j q, Pending marks ((k, r) :: l) j q ↔ (j = k ∧ q = r) ∨ Pending (marks ++ [k]) l j q := fun j q => by
    constructor
    · rintro ⟨hmem, hq, hj⟩
      rcases List.mem_cons.mp hmem with heq | hmem
      · exact .inl (Prod.mk.inj heq)
      · have hne := (hlow _ hmem).ne'
        exact .inr ⟨hmem, hq, by simp [hj, hne]⟩
    · rintro (⟨rfl, rfl⟩ | ⟨hmem, hq, hj⟩)
      · exact ⟨List.mem_cons_self, hfails, hunmarked⟩
      · exact ⟨List.mem_cons_of_mem _ hmem, hq, fun h => hj (List.mem_append_left _ h)⟩
  have hmarks : ∀ j, j ∈ marks ++ [k] ↔ j ∈ marks ∨ j = k := fun j => by simp
  obtain ⟨marks', _ | ⟨e, risk⟩⟩ := found
  · obtain ⟨hcands, hmarked⟩ := hends
    refine ⟨fun j q hq => ?_, fun j => ?_⟩
    · rcases (hpending j q).mp hq with ⟨-, rfl⟩ | hq
      · exact hnone
      · exact hcands j q hq
    · simp only [hmarked, hmarks, hpending, exists_or, exists_and_left, exists_eq, and_true, or_assoc]
  · obtain ⟨n, q, hq, hcand, hrisk, hcands, hmarked⟩ := hends
    refine ⟨n, q, (hpending n q).mpr (.inr hq), hcand, hrisk, fun j p hj hp => ?_, fun j => ?_⟩
    · rcases (hpending j p).mp hp with ⟨-, rfl⟩ | hp
      · exact hnone
      · exact hcands j p hj hp
    · have hkn : k < n := hlow _ hq.1
      have hbelow : j = k ↔ j < n ∧ j = k := ⟨fun h => ⟨h ▸ hkn, h⟩, And.right⟩
      simp only [hmarked, hmarks, hpending, exists_or, exists_and_left, exists_eq, and_true, or_assoc, and_or_left, ← hbelow]

theorem searchRows_ends : ∀ (l : List (Nat × Row)) (marks : List Nat), (l.Pairwise fun a b => a.1 < b.1) →
    SearchEnds w included l marks (searchRows w included l marks)
  | [], marks, _ => ⟨fun _ _ h => absurd h.1 List.not_mem_nil, fun j => by simp [Pending]⟩
  | (k, r) :: l, marks, hsorted => by
    obtain ⟨hlow, hrest⟩ := List.pairwise_cons.mp hsorted
    unfold searchRows; split
    next h => exact (searchRows_ends l marks hrest).skip h
    next h =>
      obtain ⟨hfails, hunmarked⟩ := not_or.mp h
      split
      next e hcand =>
        have hfirst : ∀ j q, j < k → ¬ Pending marks ((k, r) :: l) j q := by
          rintro j q hj ⟨hmem, -⟩
          rcases List.mem_cons.mp hmem with heq | hmem
          · exact absurd (congrArg Prod.fst heq) hj.ne
          · exact absurd (hlow _ hmem) (asymm hj)
        refine ⟨k, r, ⟨List.mem_cons_self, hfails, hunmarked⟩, hcand, rfl, fun j q hj hq => absurd hq (hfirst j q hj), fun j => ?_⟩
        exact ⟨.inl, fun h => h.elim id fun ⟨hj, q, hq⟩ => absurd hq (hfirst j q hj)⟩
      next hcand => exact (searchRows_ends l _ hrest).mark hfails hunmarked hlow hcand

end

/-! ### The passes (R86) -/

/-- R86: the search of some rows, from row 1 on. -/
def searchFrom1 (w : WalkInputs) (included : List Entry) (rows : List Row) (marks : List Nat) :
    List Nat × Option (Entry × Risk) := searchRows w included ((numbered 0 rows).drop 1) marks

section
variable {w : WalkInputs} {included : List Entry} {rows : List Row} {marks : List Nat}

theorem searchFrom1_ends : SearchEnds w included ((numbered 0 rows).drop 1) marks (searchFrom1 w included rows marks) :=
  searchRows_ends _ _ (numbered_pairwise 0 rows).drop

theorem searchFrom1_none (h : (searchFrom1 w included rows marks).2 = none) :
    (∀ k r, Searched marks rows k r → ∀ e, ¬ MayExclude w included r e)
      ∧ ∀ j, j ∈ (searchFrom1 w included rows marks).1 ↔ j ∈ marks ∨ ∃ r, Searched marks rows j r := by
  have hends := searchFrom1_ends (w := w) (included := included) (rows := rows) (marks := marks)
  rw [← Prod.mk.eta (p := searchFrom1 w included rows marks), h] at hends
  simpa only [SearchEnds, pending_numbered, demotionCandidate_none] using hends

theorem searchFrom1_some {e : Entry} {risk : Risk} (h : (searchFrom1 w included rows marks).2 = some (e, risk)) :
    ∃ k r, Searched marks rows k r ∧ demotionCandidate w included r = some e ∧ risk = ⟨r.verdict, r.interval⟩
      ∧ (∀ j q, j < k → Searched marks rows j q → ∀ f, ¬ MayExclude w included q f)
      ∧ ∀ j, j ∈ (searchFrom1 w included rows marks).1 ↔ j ∈ marks ∨ j < k ∧ ∃ q, Searched marks rows j q := by
  have hends := searchFrom1_ends (w := w) (included := included) (rows := rows) (marks := marks)
  rw [← Prod.mk.eta (p := searchFrom1 w included rows marks), h] at hends
  simpa only [SearchEnds, pending_numbered, demotionCandidate_none] using hends

end

/-- R86: the loop, over any rows a pass may compute; with those a variable its equations unfold without computing rows. -/
def loopOver (w : WalkInputs) (pass : List Entry → List Row) :
    Nat → List Entry → List (Entry × Risk) → List Nat → Nat → LoopEnd
  | fuel, included, excluded, marks, passes =>
    let rows := pass included
    let found := searchFrom1 w included rows marks
    match fuel, found.2 with
    | _, none | 0, _ => ⟨rows, included, excluded, found.1, passes + 1⟩
    | fuel + 1, some (e, risk) =>
      loopOver w pass fuel (included.erase e) (excluded ++ [(e, risk)]) found.1 (passes + 1)

theorem demotionLoop_eq (w : WalkInputs) : demotionLoop w = loopOver w (passRows w) := by
  delta demotionLoop loopOver
  rfl

section
variable {w : WalkInputs} {pass : List Entry → List Row} {included : List Entry} {marks : List Nat}

theorem loopOver_last (h : (searchFrom1 w included (pass included) marks).2 = none) (fuel : Nat)
    (excluded : List (Entry × Risk)) (passes : Nat) : loopOver w pass fuel included excluded marks passes =
      ⟨pass included, included, excluded, (searchFrom1 w included (pass included) marks).1, passes + 1⟩ := by
  cases fuel <;> simp only [loopOver, h]

theorem loopOver_again {e : Entry} {risk : Risk} (h : (searchFrom1 w included (pass included) marks).2 = some (e, risk))
    (fuel : Nat) (excluded : List (Entry × Risk)) (passes : Nat) :
    loopOver w pass (fuel + 1) included excluded marks passes = loopOver w pass fuel (included.erase e)
      (excluded ++ [(e, risk)]) (searchFrom1 w included (pass included) marks).1 (passes + 1) := by
  rw [loopOver.eq_def]
  simp only [h]

/-- R86: the loop is a run of passes, one more than it takes entries out, and it takes no more of them out than it has fuel for. -/
theorem loopOver_runs (hpass : ∀ es, RowsFollow w es 0 (pass es)) (fuel : Nat) (included : List Entry)
    (excluded : List (Entry × Risk)) (marks : List Nat) (passes : Nat) (hfuel : included.length ≤ fuel) :
    let e := loopOver w pass fuel included excluded marks passes
    ∃ more, e.excluded = excluded ++ more ∧ e.passes = passes + more.length + 1 ∧ more.length ≤ fuel
      ∧ DemotionRun w more included marks e.included e.marks e.rows := by
  have hlast : ∀ {fuel included excluded marks passes}, (searchFrom1 w included (pass included) marks).2 = none →
      let e := loopOver w pass fuel included excluded marks passes
      ∃ more, e.excluded = excluded ++ more ∧ e.passes = passes + more.length + 1 ∧ more.length ≤ fuel
        ∧ DemotionRun w more included marks e.included e.marks e.rows := fun h => by
    rw [loopOver_last h]
    exact ⟨[], (List.append_nil _).symm, rfl, Nat.zero_le _, rfl, hpass _, searchFrom1_none h⟩
  induction fuel generalizing included excluded marks passes with
  | zero =>
    refine hlast (Option.eq_none_iff_forall_ne_some.mpr fun ⟨e, risk⟩ hsome => ?_)
    obtain ⟨k, r, -, hcand, -⟩ := searchFrom1_some hsome
    exact absurd (List.length_pos_of_mem (demotionCandidate_some hcand).1.1) (by omega)
  | succ fuel ih =>
    cases hfound : (searchFrom1 w included (pass included) marks).2 with
    | none => exact hlast hfound
    | some found =>
      obtain ⟨e, risk⟩ := found
      obtain ⟨k, r, hr, hcand, hrisk, hlow, hmarked⟩ := searchFrom1_some hfound
      obtain ⟨hmay, hfirst⟩ := demotionCandidate_some hcand
      have hlen : (included.erase e).length ≤ fuel := by rw [List.length_erase_of_mem hmay.1]; omega
      rw [loopOver_again hfound]
      obtain ⟨more, hexcluded, hpasses, hless, hrun⟩ := ih _ (excluded ++ [(e, risk)]) _ (passes + 1) hlen
      refine ⟨(e, risk) :: more, hexcluded.trans (List.append_assoc ..), hpasses.trans ?_, Nat.succ_le_succ hless,
        pass included, k, r, _, hpass included, hr, hmay, hrisk, hfirst, hlow, hmarked, hrun⟩
      rw [List.length_cons]; omega

end

/-! ### The flagged rows and the stranded entries (R88) -/

/-- R88: the flag of row k. -/
def flagged (marks : List Nat) (k : Nat) (r : Row) : Row :=
  { r with unresolved := decide (r.verdict ≠ .ok) && (decide (k = 0) || decide (k ∈ marks)) }

section
variable {w : WalkInputs} {marks : List Nat} {rows : List Row}

theorem flagRows_getElem? (k : Nat) : (flagRows marks rows)[k]? = rows[k]?.map (flagged marks k) := by
  rw [flagRows, List.getElem?_map, numbered_getElem?, Nat.zero_add, Option.map_map]
  rfl

/-- A flag moves no figure and no verdict. -/
theorem rowFollows_flagged (included : List Entry) (heat k : Nat) (r : Row) :
    RowFollows w included heat (flagged marks k r) ↔ RowFollows w included heat r := Iff.rfl

theorem rowsFollow_flagged {included : List Entry} {lo : Nat} (h : RowsFollow w included lo rows) :
    RowsFollow w included lo (flagRows marks rows) := by
  obtain ⟨hlen, hrows⟩ := h
  have hnum : ∀ k rs, (numbered k rs).length = rs.length := fun k rs => by
    induction rs generalizing k with
    | nil => rfl
    | cons r rs ih => exact congrArg (· + 1) (ih (k + 1))
  refine ⟨by rw [flagRows, List.length_map, hnum, hlen], fun k r' hk hr => ?_⟩
  rw [flagRows_getElem?, Option.map_eq_some_iff] at hr
  obtain ⟨r, hr, rfl⟩ := hr
  obtain ⟨hinterval, hfirst, hlater⟩ := hrows k r hk hr
  refine ⟨hinterval, hfirst, fun q' hpos hq => ?_⟩
  rw [flagRows_getElem?, Option.map_eq_some_iff] at hq
  obtain ⟨q, hq, rfl⟩ := hq
  exact hlater q hpos hq

theorem searched_flagged {marks₀ : List Nat} {j : Nat} {r : Row} :
    Searched marks₀ (flagRows marks rows) j r ↔ ∃ q, Searched marks₀ rows j q ∧ r = flagged marks j q := by
  simp only [Searched, flagRows_getElem?, Option.map_eq_some_iff]
  constructor
  · rintro ⟨hj, ⟨q, hq, rfl⟩, hfails, hunmarked⟩
    exact ⟨q, ⟨hj, hq, hfails, hunmarked⟩, rfl⟩
  · rintro ⟨q, ⟨hj, hq, hfails, hunmarked⟩, rfl⟩
    exact ⟨hj, ⟨q, hq, rfl⟩, hfails, hunmarked⟩

/-- The run of the loop leaves the rows with their flags. -/
theorem DemotionRun.flagged {included' : List Entry} {marks' : List Nat} :
    ∀ {excluded : List (Entry × Risk)} {included : List Entry} {marks₀ : List Nat},
      DemotionRun w excluded included marks₀ included' marks' rows →
      DemotionRun w excluded included marks₀ included' marks' (flagRows marks rows)
  | [], included, marks₀, h => by
    obtain ⟨rfl, hfollow, hcands, hmarked⟩ := h
    refine ⟨rfl, rowsFollow_flagged hfollow, fun j r hr e => ?_, fun j => (hmarked j).trans (or_congr_right ?_)⟩
    · obtain ⟨q, hq, rfl⟩ := searched_flagged.mp hr
      exact hcands j q hq e
    · exact ⟨fun ⟨q, hq⟩ => ⟨_, searched_flagged.mpr ⟨q, hq, rfl⟩⟩, fun ⟨r, hr⟩ => (searched_flagged.mp hr).imp fun _ => And.left⟩
  | _ :: _, _, _, h => by
    obtain ⟨pass, k, r, marked, hfollow, hr, hmay, hrisk, hfirst, hlow, hmarked, hrun⟩ := h
    exact ⟨pass, k, r, marked, hfollow, hr, hmay, hrisk, hfirst, hlow, hmarked, hrun.flagged⟩

end

/-- R88: the lowest unresolved row that an open entry covers strands it. -/
theorem strandedRisk_eq_some_iff (rows : List Row) (x : Entry) (risk : Risk) : strandedRisk rows x = some risk ↔
    x.status.isOpen = true ∧ ∃ (k : Nat) (r : Row), (rows[k]? = some r ∧ r.unresolved = true ∧ x.covers r.interval = true)
      ∧ risk = ⟨r.verdict, r.interval⟩
      ∧ ∀ (k' : Nat) (r' : Row), (rows[k']? = some r' ∧ r'.unresolved = true ∧ x.covers r'.interval = true) → k ≤ k' := by
  unfold strandedRisk
  split
  next ho =>
    rw [map_find?_eq_some_iff]
    simp only [ho, true_and, Bool.and_eq_true, and_assoc, and_imp]
  next ho => simp [ho]

/-! ### The full walk (R86 to R89) -/

/-- R86: what the loop of a full walk ends with. -/
def walkLoop (w : WalkInputs) : LoopEnd := demotionLoop w w.entries.length w.entries [] [] 0

section
variable (w : WalkInputs)

theorem walkLoop_runs : DemotionRun w (walkLoop w).excluded w.entries [] (walkLoop w).included (walkLoop w).marks (walkLoop w).rows
    ∧ (walkLoop w).passes = (walkLoop w).excluded.length + 1 ∧ (walkLoop w).excluded.length ≤ w.entries.length := by
  obtain ⟨more, hexcluded, hpasses, hless, hrun⟩ := loopOver_runs (passRows_follow w) w.entries.length w.entries [] [] 0 le_rfl
  simp only [← demotionLoop_eq, List.nil_append] at hexcluded hpasses hrun
  obtain rfl : (walkLoop w).excluded = more := hexcluded
  exact ⟨hrun, hpasses.trans (by omega), hless⟩

theorem fullWalk_rows : (fullWalk w).rows = flagRows (walkLoop w).marks (walkLoop w).rows := rfl

theorem fullWalk_passes : (fullWalk w).passes = (walkLoop w).passes := rfl

/-- R88: a row is unresolved where it fails and is row 0 or marked. -/
theorem fullWalk_unresolved {k : Nat} {r : Row} (hr : (fullWalk w).rows[k]? = some r) :
    r.unresolved = true ↔ r.verdict ≠ .ok ∧ (k = 0 ∨ k ∈ (walkLoop w).marks) := by
  rw [fullWalk_rows, flagRows_getElem?] at hr
  obtain ⟨q, -, rfl⟩ := Option.map_eq_some_iff.mp hr
  simp [flagged]

/-- R89: the outcome excludes what the loop took out and the stranded entries. -/
theorem fullWalk_excludes (id seq : Nat) (risk : Risk) : (id, seq, risk) ∈ (fullWalk w).outcome.excluded ↔
    ∃ x, x.id = id ∧ x.seq = seq ∧ ((x, risk) ∈ (walkLoop w).excluded
      ∨ x ∈ (walkLoop w).included ∧ strandedRisk (fullWalk w).rows x = some risk) := by
  have hparts : (fullWalk w).outcome.excluded = (walkLoop w).excluded.map (fun x => (x.1.id, x.1.seq, x.2))
      ++ (walkLoop w).included.filterMap fun x => (strandedRisk (fullWalk w).rows x).map fun r => (x.id, x.seq, r) := rfl
  simp only [hparts, List.mem_append, List.mem_map, List.mem_filterMap, Option.map_eq_some_iff, Prod.mk.injEq, Prod.exists]
  constructor
  · rintro (⟨x, r, hx, rfl, rfl, rfl⟩ | ⟨x, hx, r, hr, rfl, rfl, rfl⟩)
    · exact ⟨x, rfl, rfl, .inl hx⟩
    · exact ⟨x, rfl, rfl, .inr ⟨hx, hr⟩⟩
  · rintro ⟨x, rfl, rfl, hx | ⟨hx, hr⟩⟩
    · exact .inl ⟨x, risk, hx, rfl, rfl, rfl⟩
    · exact .inr ⟨x, hx, risk, hr, rfl, rfl, rfl⟩

/-- R89: the outcome includes the other included entries that were AT_RISK. -/
theorem fullWalk_includes (id seq : Nat) : (id, seq) ∈ (fullWalk w).outcome.included ↔
    ∃ x, x.id = id ∧ x.seq = seq ∧ x ∈ (walkLoop w).included ∧ x.status.isAtRisk = true
      ∧ ∀ risk, strandedRisk (fullWalk w).rows x ≠ some risk := by
  have hparts : (fullWalk w).outcome.included = ((walkLoop w).included.filter fun x =>
      x.status.isAtRisk && (strandedRisk (fullWalk w).rows x).isNone).map fun x => (x.id, x.seq) := rfl
  simp only [hparts, List.mem_map, List.mem_filter, Bool.and_eq_true, Option.isNone_iff_eq_none,
    Option.eq_none_iff_forall_ne_some, Prod.mk.injEq]
  constructor
  · rintro ⟨x, ⟨hx, hrisk, hnone⟩, rfl, rfl⟩
    exact ⟨x, rfl, rfl, hx, hrisk, hnone⟩
  · rintro ⟨x, rfl, rfl, hx, hrisk, hnone⟩
    exact ⟨x, ⟨hx, hrisk, hnone⟩, rfl, rfl⟩

end

end Sys2Proof.Machine
end

section
open Sys2Proof Sys2Proof.Machine

set_option Elab.async false

/-- Settles O28: the loop is the run, and the flags and the outcome are read off its end. -/
theorem walkDemotesByTheRules : Obligations.WalkDemotesByTheRules := by
  intro w e
  obtain ⟨hrun, hpasses, hless⟩ := walkLoop_runs w
  refine ⟨_, _, _, hrun.flagged, hpasses, hpasses.le.trans (by omega), fun k r hr => fullWalk_unresolved w hr, ?_⟩
  intro covers stranded
  have hstranded : ∀ x risk, stranded x risk ↔ x ∈ (walkLoop w).included ∧ strandedRisk e.rows x = some risk := fun x risk =>
    and_congr_right fun _ => (strandedRisk_eq_some_iff e.rows x risk).symm
  simp only [hstranded]
  refine ⟨fullWalk_excludes w, fun id seq => (fullWalk_includes w id seq).trans ?_⟩
  refine exists_congr fun x => and_congr_right fun _ => and_congr_right fun _ => and_congr_right fun hx => ?_
  simp only [hx, true_and]
  rfl

end

section
/-! SUPPORT. O31 and O32: the completion of a full walk (R89): what it makes of the record, the table and the notices; and R88's promise. -/

namespace Sys2Proof.Machine

set_option Elab.async false

/-! ### The outcome applied (R70) -/

section
variable (o : Outcome) (s : State)

theorem applyOutcome_table :
    (applyOutcome o s).table = { s.table with entries := s.table.entries.map (judged o) } := by
  unfold applyOutcome; dsimp only
  split <;> split <;> rfl

/-- R70: AT_RISK is raised where a record is demoted, RECOVERED where one is recovered. -/
theorem applyOutcome_port : (applyOutcome o s).port =
    { s.port with
      latched := s.port.latched ||| (if s.table.entries.any (demotes o) then Notice.atRisk.bit else 0)
        ||| (if s.table.entries.any (recovers o) then Notice.recovered.bit else 0) } := by
  unfold applyOutcome; dsimp only
  split <;> split <;> simp [raise, State.setEntries]

theorem applyOutcome_proj : (applyOutcome o s).proj = s.proj := (applyOutcome_touches s o).get .proj

end

/-! ### The completion (R89) -/

section
variable (w : WalkInputs) (s : State)

/-- R89 steps 1 to 6: the record is written, the outcome applied and PROJECTION_DONE raised. -/
def walkWritten : State :=
  raise .projectionDone (applyOutcome (fullWalk w).outcome (s.withProj (s.proj.completedWith w (fullWalk w))))

theorem completeWalk_eq : completeWalk w s = releaseTrial (walkWritten w s) := rfl

theorem walkWritten_proj : (walkWritten w s).proj = s.proj.completedWith w (fullWalk w) := applyOutcome_proj _ _

theorem walkWritten_table : (walkWritten w s).table =
    { s.table with entries := s.table.entries.map (judged (fullWalk w).outcome) } := applyOutcome_table _ _

theorem walkWritten_port : (walkWritten w s).port =
    { s.port with
      latched := s.port.latched ||| Notice.projectionDone.bit
        ||| (if s.table.entries.any (demotes (fullWalk w).outcome) then Notice.atRisk.bit else 0)
        ||| (if s.table.entries.any (recovers (fullWalk w).outcome) then Notice.recovered.bit else 0) } := by
  unfold walkWritten raise
  rw [State.withPort_port, applyOutcome_port]
  simp only [State.withProj_port, State.withProj_table, BitVec.or_assoc, BitVec.or_comm Notice.projectionDone.bit]
  rfl

/-- R89 step 7: a trial that is released changes the trial alone. -/
theorem releaseTrial_proj (u : State) : (releaseTrial u).proj = { u.proj with trial := (releaseTrial u).proj.trial } := by
  unfold releaseTrial; split <;> rfl

/-- R89 step 7, R92: a WAITING trial starts on a walk basis that reaches its candidate. -/
theorem releaseTrial_waiting {u : State} {c : Candidate} (ht : u.proj.trial = .waiting c) (hs : u.proj.state = .valid)
    (hb : u.proj.walkBasis = some w) : (releaseTrial u).proj.trial =
      if c.entry.last ≤ w.base + 191 then .running c (trialIncluded u.table.entries c) else .waiting c := by
  simp only [releaseTrial, ht, startTrial, State.withProj_proj, placeTrial, hs, hb, trialReaches, decide_eq_true_eq]

theorem releaseTrial_other {u : State} (ht : ∀ c, u.proj.trial ≠ .waiting c) : releaseTrial u = u := by
  unfold releaseTrial; split
  next c h => exact absurd h (ht c)
  all_goals rfl

/-- R89: the engine's record after a full walk. -/
theorem completeWalk_proj : (completeWalk w s).proj =
    { s.proj.completedWith w (fullWalk w) with trial := (completeWalk w s).proj.trial } := by
  rw [completeWalk_eq, ← walkWritten_proj]
  exact releaseTrial_proj _

theorem completeWalk_table : (completeWalk w s).table =
    { s.table with entries := s.table.entries.map (judged (fullWalk w).outcome) } :=
  ((releaseTrial_touches _).get .table).trans (walkWritten_table w s)

theorem completeWalk_port : (completeWalk w s).port = (walkWritten w s).port := (releaseTrial_touches _).get .port

theorem completeWalk_trial_waiting {c : Candidate} (ht : s.proj.trial = .waiting c) : (completeWalk w s).proj.trial =
    if c.entry.last ≤ w.base + 191 then .running c (trialIncluded (completeWalk w s).table.entries c) else .waiting c := by
  have hp := walkWritten_proj w s
  rw [completeWalk_table, completeWalk_eq, releaseTrial_waiting w (c := c) (by rw [hp]; exact ht) (by rw [hp]; rfl) (by rw [hp]; rfl),
    walkWritten_table]

theorem completeWalk_trial_other (ht : ∀ c, s.proj.trial ≠ .waiting c) : (completeWalk w s).proj.trial = s.proj.trial := by
  have hp := walkWritten_proj w s
  rw [completeWalk_eq, releaseTrial_other fun c => by rw [hp]; exact ht c, hp]
  rfl

end

theorem exec_fullWalkComplete {s : State} {w : WalkInputs} (hs : inReset s = false) (hw : s.proj.walk = some w) :
    exec .fullWalkComplete s = .next (completeWalk w s) := by
  have htaken : fullWalkCompletes s = completeWalk w s := by simp only [fullWalkCompletes, hw]
  exact congrArg Host.Outcome.next ((unlessHeld_taken s _ hs).trans htaken)

/-! ### What the loop leaves (R86, R88) -/

section
variable {w : WalkInputs} {included' : List Entry} {marks' : List Nat} {rows : List Row}

/-- R86: an entry of the walk is taken out or still included. -/
theorem DemotionRun.keeps_or_excludes : ∀ {excluded : List (Entry × Risk)} {included : List Entry} {marks : List Nat},
    DemotionRun w excluded included marks included' marks' rows →
    ∀ x ∈ included, x ∈ included' ∨ ∃ risk, (x, risk) ∈ excluded
  | [], _, _, ⟨hincluded, _⟩, x, hx => .inl (hincluded ▸ hx)
  | (e, risk) :: more, included, _, ⟨_, _, _, _, _, _, _, _, _, _, _, hrun⟩, x, hx => by
    by_cases hxe : x = e
    · exact .inr ⟨risk, hxe ▸ List.mem_cons_self⟩
    · exact (hrun.keeps_or_excludes x ((List.mem_erase_of_ne hxe).mpr hx)).imp_right
        fun ⟨r, hr⟩ => ⟨r, List.mem_cons_of_mem _ hr⟩

/-- R86: the last pass finds no row unmarked, so every failing row from row 1 on is marked in the end. -/
theorem DemotionRun.marks_failing : ∀ {excluded : List (Entry × Risk)} {included : List Entry} {marks : List Nat},
    DemotionRun w excluded included marks included' marks' rows →
    ∀ (k : Nat) (r : Row), 1 ≤ k → rows[k]? = some r → r.verdict ≠ .ok → k ∈ marks'
  | [], _, marks, ⟨_, _, _, hmarked⟩, k, r, hk, hr, hfails => (hmarked k).mpr <| by
    by_cases hm : k ∈ marks
    · exact .inl hm
    · exact .inr ⟨r, hk, hr, hfails, hm⟩
  | _ :: _, _, _, ⟨_, _, _, _, _, _, _, _, _, _, _, hrun⟩, k, r, hk, hr, hfails => hrun.marks_failing k r hk hr hfails

end

/-- R88: in the end every failing row is unresolved. -/
theorem fullWalk_failing_unresolved (w : WalkInputs) {r : Row} (hr : r ∈ (fullWalk w).rows) (hfails : r.verdict ≠ .ok) :
    r.unresolved = true := by
  obtain ⟨k, hk⟩ := List.mem_iff_getElem?.mp hr
  refine (fullWalk_unresolved w hk).mpr ⟨hfails, ?_⟩
  rcases Nat.eq_zero_or_pos k with h0 | hpos
  · exact .inl h0
  · exact .inr ((walkLoop_runs w).1.flagged.marks_failing k r hpos hk hfails)

/-- R88: an open entry of the walk that covers a failing row is excluded, taken out or stranded. -/
theorem fullWalk_excludes_failing (w : WalkInputs) {x : Entry} (hx : x ∈ w.entries) (ho : x.status.isOpen = true) {r : Row}
    (hr : r ∈ (fullWalk w).rows) (hc : x.covers r.interval = true) (hfails : r.verdict ≠ .ok) :
    ∃ risk, (x.id, x.seq, risk) ∈ (fullWalk w).outcome.excluded := by
  rcases (walkLoop_runs w).1.keeps_or_excludes x hx with hin | ⟨risk, hout⟩
  · have hstranded : (strandedRisk (fullWalk w).rows x).isSome = true := by
      rw [strandedRisk, if_pos ho, Option.isSome_map, List.find?_isSome]
      exact ⟨r, hr, by rw [fullWalk_failing_unresolved w hr hfails, hc]; rfl⟩
    obtain ⟨risk, hrisk⟩ := Option.isSome_iff_exists.mp hstranded
    exact ⟨risk, (fullWalk_excludes w ..).mpr ⟨x, rfl, rfl, .inr ⟨hin, hrisk⟩⟩⟩
  · exact ⟨risk, (fullWalk_excludes w ..).mpr ⟨x, rfl, rfl, .inl hout⟩⟩

/-! ### The promise (R70, R88) -/

theorem exclusionOf_isSome {o : Outcome} {e : Entry} {risk : Risk} (h : (e.id, e.seq, risk) ∈ o.excluded) :
    (exclusionOf o e).isSome = true := by
  rw [exclusionOf, Option.isSome_map, List.find?_isSome]
  exact ⟨_, h, by simp⟩

theorem judged_covers (o : Outcome) (e : Entry) (n : Nat) : (judged o e).covers n = e.covers n := by
  unfold judged; split
  · split
    · rfl
    · split <;> rfl
  · rfl

/-- R70: an entry that is ADMITTED after an outcome was open before it, and is not listed as excluded. -/
theorem judged_admitted {o : Outcome} {e : Entry} (h : (judged o e).status = .admitted) :
    e.status.isOpen = true ∧ exclusionOf o e = none := by
  unfold judged at h
  cases ho : e.status.isOpen with
  | false => simp only [ho, Bool.false_eq_true, if_false] at h; rw [h] at ho; exact absurd ho nofun
  | true =>
    refine ⟨rfl, ?_⟩
    cases he : exclusionOf o e with
    | none => rfl
    | some r => simp [ho, he] at h

end Sys2Proof.Machine
end

section
open Sys2Proof Sys2Proof.Machine

set_option Elab.async false

/-- Settles O31: the record is written, the outcome applied and the trial released. -/
theorem fullWalkWritesRecord : Obligations.FullWalkWritesRecord := by
  intro s w hs hw e
  have hp := completeWalk_proj w s
  refine ⟨completeWalk w s, exec_fullWalkComplete hs hw, congrArg (·.rows) hp, congrArg (·.baseInterval) hp,
    congrArg (·.walkBasis) hp, congrArg (·.state) hp, congrArg (·.walk) hp, congrArg (·.passes) hp, congrArg (·.demoted) hp,
    congrArg (·.recovered) hp, congrArg (·.completed) hp, congrArg (·.unresolvedCount) hp, congrArg (·.firstUnresolved) hp,
    completeWalk_table w s, congrArg (·.restarts) hp, fun c => completeWalk_trial_waiting w s, completeWalk_trial_other w s,
    (completeWalk_port w s).trans (walkWritten_port w s), ?_⟩
  have htouches := fullWalkCompletes_touches s
  rwa [fullWalkCompletes, hw] at htouches

/-- Settles O32: an entry that is still ADMITTED was taken by the walk and not excluded, so it covers no failing row. -/
theorem fullWalkPromiseHolds : Obligations.FullWalkPromiseHolds := by
  intro s t hs hw hholds h e he hadmitted r hr hc
  obtain ⟨w, hw⟩ := Option.isSome_iff_exists.mp hw
  obtain rfl := Host.Outcome.next.inj ((exec_fullWalkComplete hs hw).symm.trans h)
  rw [completeWalk_table] at he
  have hrows : (completeWalk w s).proj.rows = (fullWalk w).rows := congrArg (·.rows) (completeWalk_proj w s)
  rw [hrows] at hr
  obtain ⟨e₀, he₀, rfl⟩ := List.mem_map.mp he
  obtain ⟨ho, hnone⟩ := judged_admitted hadmitted
  obtain ⟨x, hx, hid, hseq, hfirst, hspan, hxo⟩ := hholds w hw e₀ he₀ ho
  by_contra hfails
  have hxc : x.covers r.interval = true := by
    rw [judged_covers] at hc
    rwa [Entry.covers, Entry.last, hfirst, hspan]
  obtain ⟨risk, hrisk⟩ := fullWalk_excludes_failing w hx hxo hr hxc hfails
  have hsome := exclusionOf_isSome (e := e₀) (hid ▸ hseq ▸ hrisk)
  rw [hnone] at hsome
  exact nomatch hsome

end

section
/-! SUPPORT. Laws that read the port. Of a law that reads nothing of the plant, and that every notice the blocks raise keeps (a level notice,
which is pending by its condition alone, is not among them, R189), it is said here which operations of the receiver and of the table's
response to a boundary keep it (R64, R149 to R162). -/

namespace Sys2Proof.Machine

set_option Elab.async false

/-- P reads the table, the engine and the port alone; a notice that is latched, not a level notice, keeps it. -/
structure Noting (P : State → Prop) : Prop where
  ignores : Ignores P plantFields
  raise : ∀ n : Notice, n.bit &&& 0xF000#16 = 0 → Kept P (raise n)

namespace Noting

section
variable {P : State → Prop} (hP : Noting P)
include hP

/-- What touches the plant alone keeps the law. -/
theorem touches {fs : List Field} {s t : State} (hs : P s) (h : Touches fs s t) (hfs : fs ⊆ plantFields := by decide) : P t :=
  hP.ignores (h.mono hfs) hs

/-! ### The receiver (R149 to R162) -/

section
variable (d : Dir)

theorem releaseAct (why : ReleaseReason) : Kept P (releaseAct d why) := by
  intro s hs
  have hset := hP.touches hs (setAct_touches s d ((s.act d).releasedBy why))
  obtain h | h := releaseAct_eq d why s <;> rw [h]
  · exact hset
  · exact hP.raise .order rfl _ hset

/-- Some releases, each where its condition holds. -/
theorem releaseEach (p : Dir → State → Prop) [∀ d s, Decidable (p d s)] (why : ReleaseReason) :
    Kept P (eachDir fun d s => if p d s then Machine.releaseAct d why s else s) :=
  Apart.eachDir fun d _ hu => kept_ite (hP.releaseAct d why) hu

theorem closeAct (n : Nat) : Kept P (closeAct n d) := by
  intro s hs
  unfold Machine.closeAct; dsimp only
  split
  · exact hs
  · exact kept_ite (hP.raise .orderShort rfl) (hP.touches hs (setAct_touches s _ _))

theorem actSecond : Kept P (actSecond d) := by
  intro s hs
  have hset : ∀ v, P (s.setAct d v) := fun v => hP.touches hs (setAct_touches s d v)
  unfold Machine.actSecond; dsimp only
  split
  · exact hs
  · split
    · exact hP.releaseAct d _ s hs
    · exact hset _
  · split
    · split
      · exact hP.releaseAct d _ s hs
      · exact hset _
    · exact hs

theorem moveOwn (p : Fin 8) (level : Nat) : Kept P (moveOwn d p level) := by
  intro s hs
  have hset : ∀ v, P (s.setAct d v) := fun v => hP.touches hs (setAct_touches s d v)
  unfold Machine.moveOwn; dsimp only
  split
  · split
    · exact hset _
    · exact hP.raise .order rfl _ (hset _)
  · exact hP.raise .order rfl _ (hset _)
  · exact hset _

/-- R153, R155: an activation begins, or waits for its confirmation, once the other direction is released. -/
theorem activate (p : Fin 8) (level : Nat) : Kept P (activate d p level) := by
  intro s hs
  unfold Machine.activate; split
  · exact hP.releaseAct d _ s hs
  · split
    · exact hP.raise .orderUnbacked rfl s hs
    · exact hP.moveOwn d p level _ (hP.releaseAct _ _ s hs)

end

theorem releaseBoth (why : ReleaseReason) : Kept P (releaseBoth why) := fun s hs =>
  hP.releaseAct .down why _ (hP.releaseAct .up why s hs)

theorem ordersSecond : Kept P ordersSecond := Apart.eachDir hP.actSecond

theorem ordersBoundary (m n : Nat) : Kept P (ordersBoundary m n) := fun s hs =>
  Apart.eachDir (fun d => hP.closeAct d m) _ (hP.releaseEach _ _ s hs)

theorem takeClosings (n : Nat) : Kept P (takeClosings n) := fun s hs =>
  Apart.eachDir (fun d => hP.closeAct d n) _ (hP.touches hs (dispatchClose_touches s n))

/-- R64 to R68: of the table's response to a boundary, what writes the records decides. -/
theorem tableBoundary (m n : Nat) (hset : Kept P fun s => s.setEntries
    (s.table.entries.map fun e => openedAt n (closedAt m (credited s e)))) : Kept P (tableBoundary m n) := by
  intro s hs
  have hwritten := hset _ (hP.takeClosings m s hs)
  unfold Machine.tableBoundary; dsimp only
  rw [List.map_map]
  exact kept_ite (hP.raise .entryClosed rfl) hwritten

theorem carryOut (p : Fin 8) (level : Nat) : Kept P (carryOut p level) := by
  intro s hs
  unfold Machine.carryOut; split
  · exact hP.activate _ p level s hs
  · exact hP.activate _ p level s hs
  · exact hP.releaseAct _ _ s hs
  · exact hP.releaseAct _ _ s hs
  · exact hP.releaseBoth _ s hs

theorem takeTelegram (a b : Byte) (level : Nat) : Kept P (takeTelegram a b level) := by
  intro s hs
  have hreceived := hP.touches hs (touches_withOrders s { s.orders with received := countUp s.orders.received })
  unfold Machine.takeTelegram; dsimp only
  split
  · exact hP.releaseEach _ _ _ (hP.touches hreceived (touches_withOrders _ _))
  · exact hP.carryOut _ level _ (hP.releaseEach _ _ _ (hP.releaseEach _ _ _ (hP.releaseEach _ _ _ hreceived)))

theorem takeOrderByte (v : Byte) (f : Bool) : Kept P (takeOrderByte v f) := by
  intro s hs
  have hset : ∀ a, P (s.setAssembler a) := fun a => hP.touches hs (setAssembler_touches s a)
  have hdiscard : P (discardTelegram s) := hP.touches hs (discardTelegram_touches s)
  unfold Machine.takeOrderByte; split
  · split
    · exact hset _
    · exact hs
  · split
    · exact hdiscard
    · split
      · unfold checkTelegram; split
        · exact hP.takeTelegram _ _ _ _ (hset _)
        · exact hdiscard
      · exact hset _

end

end Noting

end Sys2Proof.Machine
end

section
/-! SUPPORT. O33: a basis change by whether a trial is in hand and how often it has been restarted (R94), what some of them leave of a trial,
and the interval and the mass of the walk that the last of them starts (R77 to R79, R90). -/

namespace Sys2Proof.Machine

set_option Elab.async false

/-! ### One basis change (R77, R78, R94) -/

section
variable {s : State} {n : Nat} {c : Candidate}

theorem countRestart_none (h : s.proj.trial = .none) : countRestart s = s := by simp only [countRestart, h]

/-- R94: a trial in hand is restarted, or is over. -/
theorem countRestart_inHand (h : s.proj.trial.candidate? = some c) : countRestart s =
    if s.proj.restarts < 4 then s.withProj { s.proj with trial := .waiting c, restarts := s.proj.restarts + 1 }
    else answerInFlight .retryLater [] (endTrial s) := by
  cases ht : s.proj.trial with
  | none => rw [ht] at h; cases h
  | waiting c' => rw [ht] at h; cases h; simp only [countRestart, ht]
  | running c' l => rw [ht] at h; cases h; simp only [countRestart, ht]

theorem answerInFlight_some {f : InFlight} (hf : s.port.inFlight = some f) (r : Result) (p : List Byte) :
    answerInFlight r p s = answer f.code r p s := by simp only [answerInFlight, hf]

theorem basisChangeAt_counts (h : s.proj.state ≠ .unavailable) :
    basisChangeAt n s = countRestart (startWalkAt n s) := by
  cases hs : s.proj.state with
  | unavailable => exact absurd hs h
  | stale => simp only [basisChangeAt, hs]
  | valid => simp only [basisChangeAt, hs]

theorem basisChangeAt_restarts (h : s.proj.state ≠ .unavailable) (hc : s.proj.trial.candidate? = some c)
    (hr : s.proj.restarts < 4) : basisChangeAt n s =
      s.withProj
        { s.proj with
          state := .stale, walk := some (walkInputsAt n s), trial := .waiting c, restarts := s.proj.restarts + 1 } := by
  rw [basisChangeAt_counts h, countRestart_inHand (s := startWalkAt n s) hc]
  exact if_pos hr

/-- R94: the fifth basis change ends the trial. -/
theorem basisChangeAt_ends {f : InFlight} (h : s.proj.state ≠ .unavailable) (hc : s.proj.trial.candidate? = some c)
    (hr : 4 ≤ s.proj.restarts) (hf : s.port.inFlight = some f) : basisChangeAt n s =
      answer f.code .retryLater []
        (s.withProj
          { s.proj with state := .stale, walk := some (walkInputsAt n s), trial := .none, restarts := 0 }) := by
  have hover : answerInFlight .retryLater [] (endTrial (startWalkAt n s)) = answer f.code .retryLater [] _ :=
    answerInFlight_some (s := endTrial (startWalkAt n s)) hf _ _
  rw [basisChangeAt_counts h, countRestart_inHand (s := startWalkAt n s) hc]
  exact (if_neg (show ¬ s.proj.restarts < 4 by omega)).trans hover

theorem basisChangeAt_unhindered (h : s.proj.state ≠ .unavailable) (ht : s.proj.trial = .none) :
    basisChangeAt n s = startWalkAt n s := by
  rw [basisChangeAt_counts h, countRestart_none (s := startWalkAt n s) ht]

theorem basisChangeAt_walk (h : s.proj.state ≠ .unavailable) :
    (basisChangeAt n s).proj.state = .stale ∧ (basisChangeAt n s).proj.walk = some (walkInputsAt n s) := by
  rw [basisChangeAt_counts h]
  exact countRestart_walk (startWalkAt n s)

end

/-- R79: the inputs of a walk are not of the engine or the port. -/
theorem walkInputs_of_touches {s t : State} (h : Touches [.proj, .port] s t) : walkInputs t = walkInputsAt s.clock.n s := by
  unfold walkInputs walkInputsAt State.train
  rw [show t.account = s.account from h.get .account, show t.heat = s.heat from h.get .heat,
    show t.table = s.table from h.get .table, show t.trains = s.trains from h.get .trains,
    show t.limits = s.limits from h.get .limits, show t.clock = s.clock from h.get .clock]

/-! ### Some basis changes against one trial (R94) -/

/-- The engine is not UNAVAILABLE, and a trial that had c in hand after r restarts, with f in flight and the reply p, is as k basis changes
leave it. -/
def Counted (c : Candidate) (f : InFlight) (r : Nat) (p : List Byte) (k : Nat) (s : State) : Prop :=
  s.proj.state ≠ .unavailable ∧
    match k with
    | 0 => s.proj.trial.candidate? = some c ∧ s.proj.restarts = r ∧ s.port.inFlight = some f ∧ s.port.reply = p
    | k + 1 =>
      (r + k < 4 → s.proj.trial = .waiting c ∧ s.proj.restarts = r + k + 1 ∧ s.port.inFlight = some f ∧ s.port.reply = p)
        ∧ (4 ≤ r + k → s.proj.trial = .none ∧ s.proj.restarts = 0 ∧ Answered f.code .retryLater [] s)

section
variable {c : Candidate} {f : InFlight} {r k : Nat} {p : List Byte} {s : State}

theorem counted_zero (hs : s.proj.state ≠ .unavailable) (hc : s.proj.trial.candidate? = some c)
    (hf : s.port.inFlight = some f) : Counted c f s.proj.restarts s.port.reply 0 s := ⟨hs, hc, rfl, hf, rfl⟩

/-- What leaves the engine, the reply and the request in flight leaves the count. -/
theorem Counted.of_same {t : State} (hp : t.proj = s.proj) (hf : t.port.inFlight = s.port.inFlight)
    (hr : t.port.reply = s.port.reply) (h : Counted c f r p k s) : Counted c f r p k t := by
  cases k <;> simpa only [Counted, Answered, hp, hf, hr] using h

theorem counted_noting : Noting (Counted c f r p k) where
  ignores _ _ h hs := hs.of_same (h.get .proj) (by rw [h.get .port]) (by rw [h.get .port])
  raise _ _ _ hs := hs.of_same rfl rfl rfl

theorem Counted.basisChangeAt (n : Nat) (h : Counted c f r p k s) : Counted c f r p (k + 1) (basisChangeAt n s) := by
  have hrestart : ∀ {m}, s.proj.trial.candidate? = some c → s.proj.restarts = r + m → s.port.inFlight = some f →
      s.port.reply = p → Counted c f r p (m + 1) (Machine.basisChangeAt n s) := by
    intro m hc hr hf hp
    refine ⟨by rw [(basisChangeAt_walk h.1).1]; decide, fun hlt => ?_, fun hge => ?_⟩
    · rw [basisChangeAt_restarts h.1 hc (by omega)]
      exact ⟨rfl, congrArg (· + 1) hr, hf, hp⟩
    · rw [basisChangeAt_ends h.1 hc (by omega) hf]
      exact ⟨rfl, rfl, rfl, rfl⟩
  cases k with
  | zero => exact hrestart h.2.1 h.2.2.1 h.2.2.2.1 h.2.2.2.2
  | succ k =>
    obtain ⟨hs, hwaits, hover⟩ := h
    by_cases hlt : r + k < 4
    · obtain ⟨ht, hr, hf, hp⟩ := hwaits hlt
      exact hrestart (by rw [ht]; rfl) hr hf hp
    · obtain ⟨ht, hr, hanswered⟩ := hover (by omega)
      rw [basisChangeAt_unhindered hs ht]
      exact ⟨nofun, fun h => absurd h (by omega), fun _ => ⟨ht, hr, hanswered⟩⟩

end

/-! ### A trip (R110) -/

/-- R110: a trip that is counted is one basis change. -/
theorem countTrip_basisChange (x : TrainIx) (s : State) :
    ∃ u, countTrip x s = basisChange u ∧ Touches [.heat, .trains, .port] s u
      ∧ ∀ P, Noting P → P s → P u := by
  have htouches := Touches.comp (gs := [.heat, .trains]) (releaseStore_touches s x) (putTrainCovered_touches _ x
      { s.train x with
        state := if s.limits.tripsLock ≤ min 255 ((s.train x).tripsToday + 1) then .lockedOut else .tripped
        setpoint := 0, stateTimer := 0, warm := false, tripsToday := min 255 ((s.train x).tripsToday + 1)
        downSince := if (s.train x).state.stoppable then 0 else (s.train x).downSince })
  exact ⟨_, rfl, htouches.comp (raise_touches _ .trip), fun P hP hs => hP.raise .trip rfl _ (hP.touches hs htouches)⟩

theorem exec_tripAssertion {x : TrainIx} {s : State} (hs : inReset s = false) (hl : (s.train x).tripLine = false)
    (ho : (s.train x).state ≠ .outOfService) (hk : (s.train x).state ≠ .lockedOut) :
    exec (.tripAssertion x) s = .next (countTrip x (s.setTrain x { s.train x with tripLine := true })) := by
  refine congrArg Host.Outcome.next ((unlessHeld_taken s _ hs).trans ?_)
  unfold tripAssert
  rw [if_neg (by simp [hl])]
  cases hstate : (s.train x).state with
  | outOfService => exact absurd hstate ho
  | lockedOut => exact absurd hstate hk
  | _ => rfl

/-! ### The two basis changes of a boundary (R90) -/

/-- A response to a boundary that is a basis change where the account is BASED. -/
def changesBasis (p : Part) : Bool := p = .accountClose ∨ p = .projectionBoundary

/-- The interval that the walk of such a response takes. -/
def walkBase (p : Part) (s : State) : Nat := if p = .accountClose then intervalOf .projectionBoundary s else s.clock.n

/-- The account is BASED and the engine not UNAVAILABLE; the clock and what is due are as in s. -/
structure Steady (s t : State) : Prop where
  clock : t.clock = s.clock
  due : t.due = s.due
  based : t.account.basis = .based
  available : t.proj.state ≠ .unavailable

/-- A walk runs that took the interval base and the mass that the account holds. -/
def WalkOn (base : Nat) (s : State) : Prop :=
  s.proj.state = .stale ∧ ∃ w, s.proj.walk = some w ∧ w.base = base ∧ w.mass = s.account.mass

section
variable {s t : State} {b : Turn} {p : Part}

theorem Steady.walkBase (h : Steady s t) (p : Part) : walkBase p t = walkBase p s := by
  simp only [Machine.walkBase, intervalOf, h.clock, h.due]

theorem walkBase_nothing (hd : s.due = []) (p : Part) : walkBase p s = s.clock.n := by
  unfold walkBase; split
  · exact intervalOf_nothing s _ hd
  · rfl

theorem basisChangeAt_walkOn (n : Nat) (h : s.proj.state ≠ .unavailable) : WalkOn n (basisChangeAt n s) := by
  obtain ⟨hstate, hwalk⟩ := basisChangeAt_walk (n := n) h
  refine ⟨hstate, _, hwalk, rfl, ?_⟩
  rw [(basisChangeAt_touches s n).get .account]
  rfl

theorem closeTaken_stands (s : State) : (closeTaken s).proj = s.proj ∧ (closeTaken s).clock = s.clock
    ∧ (closeTaken s).due = s.due := by
  unfold closeTaken; dsimp only
  split <;> exact ⟨rfl, rfl, rfl⟩

theorem closeTaken_noting {P : State → Prop} (hP : Noting P) : Kept P closeTaken := fun s hs =>
  kept_ite (hP.raise .rebased rfl) (hP.touches hs (touches_withAccount s _))

/-- R16, R90: a response that changes the basis is a basis change on its interval. -/
theorem respondBoundary_changes (hp : changesBasis p = true) (hb : s.account.basis = .based) :
    ∃ u, respondBoundary b p s = basisChangeAt (walkBase p s) u ∧ u.proj = s.proj ∧ ∀ P, Noting P → P s → P u := by
  cases p with
  | accountClose =>
    obtain ⟨hproj, hclock, hdue⟩ := closeTaken_stands s
    refine ⟨closeTaken s, ?_, hproj, fun P hP => closeTaken_noting hP s⟩
    rw [respondBoundary, accountClose_taken hb, closeBasisChange]
    simp only [walkBase, intervalOf, hclock, hdue, if_true]
  | projectionBoundary => exact ⟨s, rfl, rfl, fun _ _ => id⟩
  | _ => cases hp

theorem respondBoundary_ofSecond (hp : answersSecond p = true) : respondBoundary b p s = s := by
  cases p <;> simp_all [answersSecond, respondBoundary]

/-- The other responses leave the account and the engine. -/
theorem respondBoundary_other (hp : changesBasis p = false) (s : State) :
    (respondBoundary b p s).account = s.account ∧ (respondBoundary b p s).proj = s.proj := by
  cases hsecond : answersSecond p
  · have hframe := respondBoundary_frame b p s
    have hfields : .account ∉ partFields p ∧ .proj ∉ partFields p := by
      revert hp hsecond
      cases p <;> decide
    exact ⟨hframe .account hfields.1, hframe .proj hfields.2⟩
  · rw [respondBoundary_ofSecond hsecond]; exact ⟨rfl, rfl⟩

theorem respondBoundary_noting {P : State → Prop} (hP : Noting P) (ht : Ignores P [.table]) (hp : changesBasis p = false) :
    Kept P (respondBoundary b p) := by
  have hframe : partFields p ⊆ plantFields → Kept P (respondBoundary b p) := fun h s hs =>
    hP.touches hs (respondBoundary_frame b p s) h
  cases p with
  | accountClose | projectionBoundary => cases hp
  | tableBoundary => exact hP.tableBoundary _ _ fun s hs => ht (setEntries_touches s _) hs
  | ordersBoundary => exact hP.ordersBoundary _ _
  | ordersSecond | trainsSecond | dispatchSecond | supervisionSecond => exact fun _ hs => hs
  | _ => exact hframe (by simp [partFields])

theorem respondBoundary_account (hp : p ≠ .accountClose) : (respondBoundary b p s).account = s.account := by
  cases hc : changesBasis p
  · exact (respondBoundary_other hc s).1
  · have hown : p = .projectionBoundary := (of_decide_eq_true hc).resolve_left hp
    rw [hown]
    exact (basisChange_touches s).get .account

theorem respondBoundary_basis (b : Turn) (p : Part) (hb : s.account.basis = .based) :
    (respondBoundary b p s).account.basis = .based := by
  by_cases hp : p = .accountClose
  · obtain ⟨m, q, -, -, hclosed⟩ := closedAccount_eq s
    rw [hp, respondBoundary, accountClose_based hb, hclosed]
    exact hb
  · rw [respondBoundary_account hp]; exact hb

theorem respondBoundary_walkOn (hp : changesBasis p = true) (h : Steady s t) :
    WalkOn (walkBase p s) (respondBoundary b p t) := by
  obtain ⟨u, heq, hproj, -⟩ := respondBoundary_changes (b := b) hp h.based
  rw [heq, h.walkBase p]
  exact basisChangeAt_walkOn _ (by rw [hproj]; exact h.available)

theorem respondBoundary_steady (p : Part) : Kept (Steady s) (respondBoundary b p) := fun t h =>
  have hframe := respondBoundary_touches t b p
  { clock := (hframe.get .clock).trans h.clock
    due := (hframe.get .due).trans h.due
    based := respondBoundary_basis b p h.based
    available := by
      cases hp : changesBasis p
      · rw [(respondBoundary_other hp t).2]; exact h.available
      · rw [(respondBoundary_walkOn (b := b) hp h).1]; decide }

/-- R77, R90: after responses that hold a basis change, each on the interval base, a walk on base and the account's mass runs. -/
theorem run_walkOn {ps : List Part} {base : Nat} (hs : Steady s s) (hex : ∃ p ∈ ps, changesBasis p = true)
    (hbase : ∀ p ∈ ps, changesBasis p = true → walkBase p s = base) : WalkOn base (run (respondBoundary b) ps s) := by
  have hkept : ∀ p ∈ ps, Kept (fun t => Steady s t ∧ WalkOn base t) (respondBoundary b p) := by
    rintro p hmem t ⟨hsteady, hwalk⟩
    refine ⟨respondBoundary_steady p t hsteady, ?_⟩
    cases hp : changesBasis p
    · obtain ⟨hacc, hproj⟩ := respondBoundary_other (b := b) hp t
      rw [WalkOn, hacc, hproj]; exact hwalk
    · rw [← hbase p hmem hp]; exact respondBoundary_walkOn hp hsteady
  obtain ⟨p, hmem, hp⟩ := hex
  obtain ⟨l₁, l₂, rfl⟩ := List.append_of_mem hmem
  have hbefore := run_kept (f := respondBoundary b) l₁ (fun q _ => respondBoundary_steady q) s hs
  rw [run_append, run_cons]
  refine (run_kept l₂ (fun q hq => hkept q (by simp [hq])) _ ⟨respondBoundary_steady p _ hbefore, ?_⟩).2
  rw [← hbase p hmem hp]
  exact respondBoundary_walkOn hp hbefore

theorem run_steady (ps : List Part) (hs : Steady s s) : Steady s (run (respondBoundary b) ps s) :=
  run_kept ps (fun p _ => respondBoundary_steady p) s hs

/-- R90, R94: every basis change of a run counts against the trial. -/
theorem run_counted {c : Candidate} {f : InFlight} {r : Nat} {q : List Byte} : ∀ (ps : List Part) {k : Nat} {s : State},
    s.account.basis = .based → Counted c f r q k s →
      Counted c f r q (k + ps.countP changesBasis) (run (respondBoundary b) ps s)
  | [], _, _, _, h => h
  | p :: ps, k, s, hb, h => by
    have hrest : ∀ {k}, Counted c f r q k (respondBoundary b p s) → _ := run_counted ps (respondBoundary_basis b p hb)
    rw [run_cons]
    cases hp : changesBasis p
    · have hnext : Counted c f r q k (respondBoundary b p s) :=
        respondBoundary_noting counted_noting (fun _ _ ht hu => hu.of_same (ht.get .proj) (by rw [ht.get .port])
          (by rw [ht.get .port])) hp s h
      rw [List.countP_cons_of_neg (by simp [hp])]
      exact hrest hnext
    · obtain ⟨u, heq, -, hnoting⟩ := respondBoundary_changes (b := b) hp hb
      have hnext : Counted c f r q (k + 1) (respondBoundary b p s) := by
        rw [heq]; exact (hnoting _ counted_noting h).basisChangeAt _
      rw [List.countP_cons_of_pos hp, ← Nat.add_assoc, Nat.add_right_comm]
      exact hrest hnext

end

/-- R90: a boundary holds two basis changes, in whatever order. -/
theorem boundaryOrder_changes (order : List Part) : (boundaryOrder order).countP changesBasis = 2 := by
  have hperm : (boundaryOrder order).Perm boundaryParts := by
    refine (List.perm_ext_iff_of_nodup (nodup_boundaryOrder order) (by decide)).mpr fun p => ?_
    rw [mem_boundaryOrder]
    cases p <;> decide
  rw [hperm.countP_eq]
  decide

/-! ### A boundary of which one response is put off (log 24) -/

section
variable {s : State} {order : List Part} {later : Part}

/-- The responses but one are made in turn; the one becomes due. -/
theorem boundaryNow_onePutOff (hd : s.due = []) (hl : answersSecond later = false) :
    boundaryNow ⟨order, [later]⟩ s =
      run (respondBoundary (turnOf s)) ((boundaryOrder order).filter (· ≠ later))
        ((endInterval s).withDue [.boundary (turnOf s) later]) := by
  have hmade : (boundaryDues order (turnOf s)).filter (fun d => !([later] : List Part).contains d.part) =
      ((boundaryOrder order).filter (· ≠ later)).map (.boundary (turnOf s)) := by
    rw [boundaryDues, List.filter_map]
    refine congrArg _ (List.filter_congr fun p _ => ?_)
    simp [Due.part]
  have hdue : (boundaryDues order (turnOf s)).filter (fun d => ([later] : List Part).contains d.part) =
      [.boundary (turnOf s) later] := by
    have hone : (boundaryOrder order).filter (· = later) = [later] := by
      rw [List.filter_eq, (nodup_boundaryOrder order).count, if_pos ((mem_boundaryOrder order later).mpr hl)]
      rfl
    rw [boundaryDues, List.filter_map]
    refine (congrArg _ (List.filter_congr fun p _ => ?_)).trans (congrArg (List.map (Due.boundary (turnOf s))) hone)
    simp [Due.part]
  unfold boundaryNow; dsimp only
  rw [settle_nothing s true hd, respondOrPutOff, hmade, hdue, respondAll_map]
  show run _ _ ((endInterval s).withDue (s.due ++ _)) = _
  rw [hd, List.nil_append]
  rfl

/-- R90: with one of the two basis changes put off, a walk on the other's interval runs between them, and what is due restarts it on the new
interval. -/
theorem boundary_between {base : Nat} (hs : inReset s = false) (hd : s.due = []) (hr : s.clock.running = true)
    (hb : s.account.basis = .based) (hp : s.proj.state ≠ .unavailable) (hl : changesBasis later = true)
    (hbase : ∀ p, p ≠ later → changesBasis p = true →
      walkBase p ((endInterval s).withDue [.boundary (turnOf s) later]) = base) :
    ∃ t u w v, exec (.boundary ⟨order, [later]⟩) s = .next t ∧ t.clock.n = (s.clock.n + 1) % 4294967296
      ∧ t.proj.state = .stale ∧ t.proj.walk = some w ∧ w.base = base ∧ w.mass = t.account.mass
      ∧ (later = .accountClose → t.account = s.account)
      ∧ step (t.withPending []) = .next u
      ∧ u.proj.state = .stale ∧ u.proj.walk = some v ∧ v.base = t.clock.n ∧ v.mass = u.account.mass := by
  have hlater : answersSecond later = false := by
    revert hl
    cases later <;> decide
  have hrun := boundaryNow_onePutOff (order := order) hd hlater
  set s₀ := (endInterval s).withDue [.boundary (turnOf s) later]
  set ps := (boundaryOrder order).filter (· ≠ later)
  have hmem : ∀ p, p ∈ ps ↔ answersSecond p = false ∧ p ≠ later := fun p => by
    simp only [ps, List.mem_filter, mem_boundaryOrder, decide_eq_true_eq]
  have hsteady₀ : Steady s₀ s₀ := ⟨rfl, rfl, hb, hp⟩
  have hother : ∃ p ∈ ps, changesBasis p = true := by
    cases later with
    | accountClose => exact ⟨.projectionBoundary, (hmem _).mpr (by decide), rfl⟩
    | projectionBoundary => exact ⟨.accountClose, (hmem _).mpr (by decide), rfl⟩
    | _ => cases hl
  obtain ⟨hstale, w, hw, hwbase, hwmass⟩ := run_walkOn (b := turnOf s) hsteady₀ hother
    fun p hp => hbase p ((hmem p).mp hp).2
  have hsteady := run_steady (b := turnOf s) ps hsteady₀
  have htouches := run_touches ps (fun q _ u => respondBoundary_touches u (turnOf s) q) s₀
  set t := run (respondBoundary (turnOf s)) ps s₀
  let t₀ := (t.withPending []).withDue []
  have hsteady' : Steady t₀ t₀ := ⟨rfl, rfl, hsteady.based, hsteady.available⟩
  obtain ⟨hstale', v, hv, hvbase, hvmass⟩ := respondBoundary_walkOn (b := turnOf s) hl hsteady'
  refine ⟨t, respondBoundary (turnOf s) later t₀, w, v, ?_, ?_, hstale, hw, hwbase, hwmass, fun hclose => ?_, ?_, hstale',
    hv, hvbase.trans ?_, hvmass⟩
  · rw [exec_boundary_taken s hs hr, hrun]
  · rw [hsteady.clock]; rfl
  · refine run_keeps State.account ps (fun p hp u => ?_) s₀
    exact respondBoundary_account fun h => ((hmem p).mp hp).2 (h.trans hclose.symm)
  · have hreset : inReset (t.withPending []) = false := by
      rw [inReset, show (t.withPending []).por = s₀.por from htouches.get .por]; exact hs
    rw [step_idle rfl, unlessHeld_taken _ _ hreset, respondNext_cons (s := t.withPending []) hsteady.due]
    rfl
  · exact walkBase_nothing (s := t₀) rfl later

end

end Sys2Proof.Machine
end

section
open Sys2Proof Sys2Proof.Machine

set_option Elab.async false

/-- Settles O33: a basis change by the trial in hand; a trip is one, and a boundary two whatever the order of its responses. -/
theorem basisChangeCountsAgainstTrial : Obligations.BasisChangeCountsAgainstTrial := by
  refine ⟨fun s => ⟨fun hs hb hr => ?_, fun hs hn => ?_, fun hs ht => ?_, fun c hs hc => ⟨fun hr => ?_, fun f hr hf => ?_⟩⟩,
    fun s x c f hs hline hout hlocked hp hc hf => ?_, fun order s c f hs hd hr hb hp hc hf => ?_,
    fun order s hs hd hr hb hp => ⟨?_, ?_⟩⟩
  · simp only [basisChange, basisChangeAt, hs, hb, hr, and_self, if_true]
    rfl
  · refine basisChange_dropped hs fun h => ?_
    rcases hn with hn | hn
    · rw [hn] at h; exact absurd h.1 nofun
    · rw [hn] at h; exact absurd h.2 nofun
  · exact basisChangeAt_unhindered hs ht
  · exact basisChangeAt_restarts hs hc hr
  · exact basisChangeAt_ends hs hc hr hf
  · obtain ⟨u, heq, htouches, hnoting⟩ := countTrip_basisChange x (s.setTrain x { s.train x with tripLine := true })
    have hproj : u.proj = s.proj := htouches.get .proj
    have hclock : u.clock = s.clock := htouches.get .clock
    obtain ⟨-, hwaits, hover⟩ := (hnoting _ counted_noting (counted_zero (s := s.setTrain x _) hp hc hf)).basisChangeAt u.clock.n
    obtain ⟨hstale, hwalk⟩ := basisChangeAt_walk (s := u) (n := u.clock.n) (by rw [hproj]; exact hp)
    have hinputs : walkInputs (basisChange u) = walkInputsAt u.clock.n u := walkInputs_of_touches (basisChange_touches u)
    refine ⟨basisChange u, (exec_tripAssertion hs hline hout hlocked).trans (congrArg _ heq), hstale, ?_, ?_, hwaits, hover⟩
    · rw [hinputs]; exact hwalk
    · rw [hinputs, hclock]; rfl
  · have hcounted := run_counted (b := turnOf s) (boundaryOrder order) (s := endInterval s) hb (counted_zero hp hc hf)
    rw [boundaryOrder_changes] at hcounted
    obtain ⟨-, hwaits, hover⟩ := hcounted
    have hsteady : Steady (endInterval s) (endInterval s) := ⟨rfl, rfl, hb, hp⟩
    obtain ⟨hstale, w, hw, hbase, hmass⟩ := run_walkOn (b := turnOf s) (ps := boundaryOrder order) hsteady
      ⟨.accountClose, (mem_boundaryOrder order _).mpr rfl, rfl⟩ fun p _ _ => walkBase_nothing (s := endInterval s) hd p
    have hclock := (run_steady (b := turnOf s) (boundaryOrder order) hsteady).clock
    exact ⟨_, w, (exec_boundary_taken s hs hr).trans (congrArg _ (boundaryNow_run hd)), hstale, hw, by rw [hclock, hbase],
      hmass, fun hlt => hwaits (show s.proj.restarts + 1 < 4 by omega),
      fun hge => hover (show 4 ≤ s.proj.restarts + 1 by omega)⟩
  · obtain ⟨t, u, w, v, hexec, hclock, hstale, hw, hbase, hmass, -, hrest⟩ :=
      boundary_between (order := order) (later := .projectionBoundary) (base := s.clock.n) hs hd hr hb hp rfl
        fun p hne hc => if_pos ((of_decide_eq_true hc).resolve_right hne)
    exact ⟨t, u, w, v, hexec, hclock, hstale, hw, hbase, hmass, hrest⟩
  · obtain ⟨t, u, w, v, hexec, hclock, hstale, hw, hbase, hmass, haccount, hrest⟩ :=
      boundary_between (order := order) (later := .accountClose) (base := (s.clock.n + 1) % 4294967296) hs hd hr hb hp rfl
        fun p hne _ => if_neg hne
    exact ⟨t, u, w, v, hexec, hclock, hstale, hw, hbase, hmass.trans (by rw [haccount rfl]), hrest⟩

end

section
/-! SUPPORT. Laws that read the port and the engine. Of a law that every notice the blocks raise, a basis change, a new mask and the table's
figures at a boundary keep, it is said here which operations keep it: those of the sequencer, the dispatcher, the account and the modes,
and the events (R77, R101 to R119, R128 to R141, R168, R176). Apart asks such a law to be kept by every notice; a level notice, which no
operation raises, would break a law that none is latched (R189). -/

namespace Sys2Proof.Machine

set_option Elab.async false

/-- P is as Noting asks, and a basis change, a new mask and the records' figures at a boundary keep it. -/
structure Acting (P : State → Prop) : Prop extends Noting P where
  basisChangeAt : ∀ n, Kept P (basisChangeAt n)
  mask : ∀ m, Kept P fun s => s.withPort { s.port with mask := m }
  records : ∀ m n, Kept P fun s => s.setEntries (s.table.entries.map fun e => openedAt n (closedAt m (credited s e)))

namespace Acting

section
variable {P : State → Prop} (hP : Acting P)
include hP

theorem touches {fs : List Field} {s t : State} (hs : P s) (h : Touches fs s t) (hfs : fs ⊆ plantFields := by decide) : P t :=
  hP.toNoting.touches hs h hfs

theorem basisChange : Kept P basisChange := fun s hs => hP.basisChangeAt s.clock.n s hs

theorem trainEvent : Kept P (raise .trainEvent) := hP.raise .trainEvent rfl

/-! ### The train sequencer (R101 to R119) -/

section
variable (x : TrainIx)

theorem setTrain (v : Train) : Kept P fun s => s.setTrain x v := fun s hs => hP.touches hs (setTrain_touches s x v)

theorem releaseStore : Kept P (releaseStore x) := fun s hs => hP.touches hs (releaseStore_touches s x)

/-- R119: a record whose class changes hands on a basis change. -/
theorem putTrain (v : Train) : Kept P (putTrain x v) := by
  intro s hs
  have hset := hP.setTrain x (classed s.limits x v) s hs
  unfold Machine.putTrain; dsimp only
  split
  · exact hset
  · exact hP.basisChange _ hset

theorem enterReady : Kept P (enterReady x) := fun s hs => hP.trainEvent _ (hP.putTrain x _ s hs)

theorem stopFrom (v : Train) : Kept P (stopFrom x v) := fun s hs => hP.putTrain x _ _ (hP.releaseStore x s hs)

theorem enterStopping : Kept P (enterStopping x) := fun s => hP.stopFrom x _ s

theorem enterCooldown : Kept P (enterCooldown x) := fun s hs => hP.trainEvent _ (hP.putTrain x _ s hs)

theorem enterIdle : Kept P (enterIdle x) := fun s hs => hP.trainEvent _ (hP.putTrain x _ s hs)

theorem expire : Kept P (expire x) := by
  intro s hs
  unfold Machine.expire; split
  · exact hP.enterReady x s hs
  · exact hP.enterStopping x s hs
  · exact hP.enterCooldown x s hs
  · exact hP.enterIdle x s hs
  all_goals exact hP.setTrain x _ s hs

theorem trainSecond : Kept P (trainSecond x) := by
  refine fun s hs => hP.putTrain x _ _ ?_
  unfold countTimer; dsimp only
  split
  · exact hs
  · split
    · exact hP.expire x s hs
    · exact hP.setTrain x _ s hs

theorem requestStart : Kept P (requestStart x) := by
  intro s hs
  unfold Machine.requestStart; dsimp only
  split
  · exact hs
  · split
    · split
      · exact hs
      · exact hP.trainEvent _ (hP.setTrain x _ s hs)
    · exact hP.putTrain x _ s hs

theorem requestLoad : Kept P (requestLoad x) := by
  intro s hs
  unfold Machine.requestLoad; split
  · exact hP.trainEvent _ (hP.touches (hP.putTrain x _ s hs) (assignStore_touches _ x))
  · exact hs

theorem startOrLoad : Kept P (startOrLoad x) := by
  intro s hs
  unfold Machine.startOrLoad; split
  · exact kept_ite (hP.requestStart x) hs
  · exact kept_ite (hP.requestLoad x) hs
  all_goals exact hs

theorem requestUnload : Kept P (requestUnload x) := by
  intro s hs
  unfold Machine.requestUnload; split
  · exact hP.trainEvent _ (hP.putTrain x _ _ (hP.releaseStore x s hs))
  · exact hs

theorem requestStop : Kept P (requestStop x) := fun _ => kept_ite (hP.enterStopping x)

theorem stopOrUnload : Kept P (stopOrUnload x) := by
  intro s hs
  have hstop := hP.requestStop x s hs
  have hunload := hP.requestUnload x _ hstop
  unfold Machine.stopOrUnload; dsimp only
  split
  · exact hstop
  · split
    · exact hP.touches hunload (setHold_touches _ x true)
    · exact hunload

theorem releaseTrain : Kept P (releaseTrain x) := by
  intro s hs
  unfold Machine.releaseTrain; dsimp only
  split
  · split
    · exact hs
    · exact hP.stopOrUnload x s hs
  · split
    · exact hs
    · exact hP.requestStop x s hs
  all_goals exact hs

theorem tripAssert : Kept P (tripAssert x) := by
  intro s hs
  have hline := hP.setTrain x { s.train x with tripLine := true } s hs
  unfold Machine.tripAssert; dsimp only
  split
  · exact hs
  · split
    · exact hline
    · exact hline
    all_goals
      obtain ⟨u, hu, -, hnoting⟩ := countTrip_basisChange x (s.setTrain x { s.train x with tripLine := true })
      rw [hu]
      exact hP.basisChange u (hnoting P hP.toNoting hline)

/-- R116: a side's excursion stops its trains, or clears their flags. -/
theorem excursionChanged (side : Side) (e : Excursion) : Kept P (excursionChanged side e) := by
  intro s hs
  unfold Machine.excursionChanged; split
  · exact Apart.eachTrain (fun x _ => kept_ite (hP.stopFrom x _)) _ s hs
  · exact hs
  · exact Apart.eachTrain (fun x _ hu => hP.setTrain x _ _ hu) _ s hs

end

/-! ### The dispatcher (R135, R141) -/

theorem lookAhead : Kept P lookAhead := by
  intro s hs
  have hahead : P ((rowsAhead s).foldl aheadOfRow (s, [])).1 :=
    List.foldlRecOn (motive := fun w : State × List TrainIx => P w.1) _ _ hs fun w hw r _ =>
      Apart.eachTrain (fun x _ => kept_ite (hP.requestStart x)) _ w.1 hw
  unfold Machine.lookAhead; split
  · exact hP.touches hahead (touches_withDispatch _ _)
  · exact hP.touches hs (touches_withDispatch _ _)

theorem dispatchTrains : Kept P dispatchTrains := fun s hs => by
  have hreleased : P (releaseUnwanted (formCommit s)) :=
    hP.touches (Apart.eachTrain hP.releaseTrain TrainIx.all _ (hP.touches hs (formCommit_touches s))) (clearHolds_touches _)
  have hahead := hP.lookAhead _ (Apart.eachTrain hP.startOrLoad (releaseUnwanted (formCommit s)).dispatch.commit _ hreleased)
  exact Apart.eachTrain (fun x _ hu => hP.touches hu (rampTrain_touches _ x)) TrainIx.all _
    (hP.touches hahead (computeShares_touches _ (runningMembers (formCommit s))))

/-! ### Account and modes (R10, R16 to R18, R23, R117, R168, R176) -/

theorem accountClose : Kept P accountClose := by
  intro s hs
  cases h : s.account.basis with
  | unbased => rw [accountClose_unbased h]; exact hP.touches hs (touches_withAccount s _)
  | based => rw [accountClose_taken h]; exact hP.basisChangeAt _ _ (closeTaken_noting hP.toNoting s hs)

theorem baseAccount : Kept P baseAccount := by
  intro s hs
  unfold Machine.baseAccount; split
  · exact hs
  · exact hP.basisChange _ (hP.touches hs (touches_withAccount s _))

theorem setExcursion (side : Side) (e : Excursion) : Kept P (setExcursion side e) := by
  intro s hs
  have hset : ∀ a, P (s.withAccount a) := fun a => hP.touches hs (touches_withAccount s a)
  unfold Machine.setExcursion; dsimp only
  split
  · exact hset _
  · exact hP.excursionChanged side e _ (hset _)

theorem judgeExcursions : Kept P judgeExcursions := fun s hs =>
  hP.setExcursion .discharge _ _ (hP.setExcursion .charge _ s hs)

theorem enteredSafe : Kept P enteredSafe := fun s hs =>
  hP.mask _ _ (hP.releaseBoth _ _ (Apart.eachTrain (fun x _ => kept_ite (hP.enterStopping x)) TrainIx.all s hs))

theorem changeMode (m : Mode) : Kept P (changeMode m) := by
  intro s hs
  have hraised := hP.raise .mode rfl _ (hP.touches hs (touches_withMode s m))
  unfold Machine.changeMode; dsimp only
  split
  · exact hP.enteredSafe _ hraised
  · exact hP.touches hraised (reloadTimer_touches _)
  · exact hP.touches hraised (reloadTimer_touches _)
  · exact hraised

theorem supervisionFailure : Kept P supervisionFailure := by
  intro s hs
  have hcounted : P (countFailure s) := hP.touches hs (touches_withSupervision s _)
  unfold Machine.supervisionFailure; dsimp only
  split
  · exact hP.changeMode _ _ hcounted
  · exact hP.changeMode _ _ hcounted
  · exact hP.changeMode _ _ hcounted
  · exact hcounted
  · exact hcounted

theorem countSupervision : Kept P countSupervision := fun s hs =>
  kept_ite hP.supervisionFailure (hP.touches hs (touches_withSupervision s _))

/-! ### The responses and the events (R69, R90, R128, R129) -/

theorem respondSecond (p : Part) : Kept P (respondSecond p) := by
  have hframe : partFields p ⊆ plantFields → Kept P (Machine.respondSecond p) := fun h s hs =>
    hP.touches hs (respondSecond_frame p s) h
  cases p with
  | trainsSecond => exact fun s hs => hP.touches (Apart.eachTrain hP.trainSecond TrainIx.all s hs) (touches_withTrains _ _)
  | dispatchSecond =>
    intro s hs
    rw [Machine.respondSecond, dispatchSecond_eq]
    exact hP.touches (hP.dispatchTrains _ (hP.touches hs (formTarget_touches s))) (meterSecond_touches _)
  | ordersSecond => exact hP.ordersSecond
  | supervisionSecond => exact fun _ => kept_ite hP.countSupervision
  | accountClose | tableBoundary | ordersBoundary | projectionBoundary => exact fun _ hs => hs
  | _ => exact hframe (by simp [partFields])

theorem respondBoundary (b : Turn) (p : Part) : Kept P (respondBoundary b p) := by
  have hframe : partFields p ⊆ plantFields → Kept P (Machine.respondBoundary b p) := fun h s hs =>
    hP.touches hs (respondBoundary_frame b p s) h
  cases p with
  | accountClose => exact hP.accountClose
  | tableBoundary => exact hP.tableBoundary _ _ (hP.records _ _)
  | ordersBoundary => exact hP.ordersBoundary _ _
  | projectionBoundary => exact hP.basisChange
  | trainsSecond | dispatchSecond | ordersSecond | supervisionSecond => exact fun _ hs => hs
  | _ => exact hframe (by simp [partFields])

theorem respondAll (ds : List Due) : Kept P (respondAll ds) :=
  respondAll_kept (fun d => match d with | .second p => hP.respondSecond p | .boundary b p => hP.respondBoundary b p) ds

theorem settle (b : Bool) : Kept P (settle b) := fun s hs => hP.respondAll _ _ (hP.touches hs (touches_withDue s _))

theorem respondOrPutOff (later : List Part) (ds : List Due) : Kept P (respondOrPutOff later ds) := fun s hs =>
  hP.respondAll _ _ (hP.touches hs (touches_withDue s _))

theorem respondNext : Kept P respondNext := by
  intro s hs
  unfold Machine.respondNext; split
  · exact hs
  next d ds _ => exact hP.respondAll [d] _ (hP.touches hs (touches_withDue s ds))

theorem boundaryNow (how : Schedule) : Kept P (boundaryNow how) := fun s hs =>
  hP.respondOrPutOff _ _ _ (hP.touches (hP.settle true s hs) (endInterval_touches _))

theorem secondNow (how : Schedule) : Kept P (secondNow how) := fun s hs =>
  have hsettled : P (settleForSecond s) := kept_ite (hP.settle true) (hP.settle false s hs)
  hP.respondOrPutOff _ _ _ (hP.touches (hP.respondOrPutOff _ _ _ hsettled) (clockSecond_touches _))

theorem pulseNow (how : Schedule) : Kept P (pulseNow how) := by
  intro s hs
  have hkept : P (keepCapture s) := hP.touches hs (keepCapture_touches s)
  unfold Machine.pulseNow; split
  · exact hP.boundaryNow how _ hkept
  · exact hP.touches hkept (restartCount_touches _)
  · exact hP.raise .clockSlip rfl _ hkept

/-- R69, R77 to R79: CLOCK_SET makes what is due to an earlier boundary, sets the clock, and is a basis change. -/
theorem setClock (n d c : Nat) : Kept P (setClock n d c) := fun s hs =>
  hP.basisChange _ (Apart.eachDir (fun d _ hu => hP.touches hu (setActClosing_touches _ _ d)) _
    (hP.touches (hP.touches (hP.settle true s hs) (touches_withClock _ _)) (touches_withDispatch _ _)))

end

end Acting

end Sys2Proof.Machine
end

section
/-! SUPPORT. O59: the laws that the port and the engine keep together, one field at a time: what notices, basis changes, replies and the
table's records do to each (R76, R79, R91, R94, R183, R184, R189, R192). -/

namespace Sys2Proof.Machine

set_option Elab.async false

/-! ### The laws apart (R76, R91, R183, R189, R192) -/

/-- The port's laws but for what the walk holds of the table. -/
structure EngineLaw (s : State) : Prop where
  walk : WalkLaw s
  trial : TrialLaw s
  reply : ReplyLaw s
  cursor : CursorLaw s
  latched : LatchedLaw s

theorem portLaw_iff (s : State) : PortLaw s ↔ EngineLaw s ∧ WalkHoldsTable s :=
  ⟨fun ⟨hw, hh, ht, hr, hc, hl⟩ => ⟨⟨hw, ht, hr, hc, hl⟩, hh⟩, fun ⟨⟨hw, ht, hr, hc, hl⟩, hh⟩ => ⟨hw, hh, ht, hr, hc, hl⟩⟩

/-- What stands of the laws where no trial is in hand, whatever is in flight. -/
structure Untried (s : State) : Prop where
  walk : WalkLaw s
  cursor : CursorLaw s
  latched : LatchedLaw s
  trial : s.proj.trial = .none
  restarts : s.proj.restarts = 0

/-- The same, with a walk that holds every open record: a reply makes of it the port's laws. -/
structure Resting (s : State) : Prop extends Untried s where
  holds : WalkHoldsTable s

section
variable {s t : State}

/-- R91, R184: no trial and no request, or a trial for the request in flight. -/
theorem trialLaw_iff : TrialLaw s ↔ (s.proj.trial = .none ∧ s.port.inFlight = none ∧ s.proj.restarts = 0)
    ∨ ∃ c f, s.proj.trial.candidate? = some c ∧ s.port.inFlight = some f ∧ (c.amends = true ↔ f ≠ .admitEntry)
      ∧ ((∃ c' l, s.proj.trial = .running c' l) → s.proj.state = .valid) := by
  unfold TrialLaw
  cases s.proj.trial <;> cases s.port.inFlight <;> simp [Trial.candidate?]

theorem replyLaw_of_none (h : s.port.inFlight = none) : ReplyLaw s := by simp [ReplyLaw, busy, h]

theorem replyLaw_of_empty (h : s.port.reply = []) : ReplyLaw s := by simp [ReplyLaw, replyWaiting, h]

theorem WalkLaw.of_proj (hp : t.proj = s.proj) (h : WalkLaw s) : WalkLaw t := by rwa [WalkLaw, hp]

theorem CursorLaw.of_cursor (hc : t.port.cursor = s.port.cursor) (h : CursorLaw s) : CursorLaw t := by rwa [CursorLaw, hc]

theorem LatchedLaw.of_latched (hl : t.port.latched = s.port.latched) (h : LatchedLaw s) : LatchedLaw t := by
  rwa [LatchedLaw, hl]

/-- R189: a notice that is latched leaves the level notices out. -/
theorem LatchedLaw.raise {n : Notice} (hn : n.bit &&& 0xF000#16 = 0) (h : LatchedLaw s) : LatchedLaw (raise n s) := by
  show (s.port.latched ||| n.bit) &&& 0xF000#16 = 0
  rw [BitVec.and_comm, BitVec.and_or_distrib_left, BitVec.and_comm, h, BitVec.and_comm, hn]
  rfl

/-- R76, R77: a walk that begins makes the projection STALE. -/
theorem WalkLaw.stale (hrows : t.proj.rows = s.proj.rows) (hstate : t.proj.state = .stale) (hwalk : t.proj.walk.isSome = true)
    (hr : t.proj.restarts ≤ 4) (h : WalkLaw s) : WalkLaw t :=
  ⟨by rw [hrows]; exact h.1, by simp [hwalk, hstate], fun hv => absurd (hstate.symm.trans hv) nofun, hr⟩

/-- R79, R88: what a table holds open stood open before, under its id and seq, and over its intervals. -/
theorem WalkHoldsTable.of_records (hw : t.proj.walk = s.proj.walk) (h : WalkHoldsTable s)
    (he : ∀ e ∈ t.table.entries, e.status.isOpen = true →
      ∃ x ∈ s.table.entries, x.slot = e.slot ∧ x.span = e.span ∧ x.status.isOpen = true) : WalkHoldsTable t := by
  intro w hwalk e hmem ho
  obtain ⟨x, hx, hslot, hspan, hopen⟩ := he e hmem ho
  obtain ⟨y, hy, hid, hseq, hfirst, hspan', hopen'⟩ := h w (hw ▸ hwalk) x hx hopen
  simp only [Entry.slot, Prod.mk.injEq] at hslot
  obtain ⟨hslotId, hslotFirst, hslotSeq⟩ := hslot
  exact ⟨y, hy, hid.trans hslotId, hseq.trans hslotSeq, hfirst.trans hslotFirst, hspan'.trans hspan, hopen'⟩

theorem WalkHoldsTable.of_same (hw : t.proj.walk = s.proj.walk) (ht : t.table = s.table) (h : WalkHoldsTable s) :
    WalkHoldsTable t := h.of_records hw fun e he ho => ⟨e, ht ▸ he, rfl, rfl, ho⟩

theorem walkHoldsTable_of_none (h : s.proj.walk = none) : WalkHoldsTable s := fun _ hw => nomatch h.symm.trans hw

theorem isClosed_of_isOpen {st : EntryStatus} (h : st.isOpen = true) : st.isClosed = false :=
  Bool.eq_false_iff.mpr fun hc => nomatch h.symm.trans (EntryStatus.not_open_of_closed hc).1

/-- R64 to R68: a record that is open after a boundary is as it was. -/
theorem settled_of_open (u : State) (m n : Nat) (e : Entry)
    (h : (openedAt n (closedAt m (credited u e))).status.isOpen = true) : openedAt n (closedAt m (credited u e)) = e := by
  have hopened : ∀ x, (openedAt n x).status.isOpen = true → openedAt n x = x := fun x hx => by
    unfold openedAt at hx ⊢; split at hx
    · cases hx
    next hn => exact if_neg hn
  have hclosed : ∀ x, (closedAt m x).status.isOpen = true → closedAt m x = x := fun x hx => by
    unfold closedAt at hx ⊢; split at hx
    · dsimp only at hx; split at hx <;> cases hx
    next hn => exact if_neg hn
  have hcredited : (credited u e).status.isOpen = true → credited u e = e := fun hx => by
    unfold credited at hx ⊢; split at hx
    next ha => exact absurd hx (by simp [ha, EntryStatus.isOpen])
    next hn => exact if_neg hn
  have h₁ := hopened _ h
  rw [h₁] at h ⊢
  have h₂ := hclosed _ h
  rw [h₂] at h ⊢
  exact hcredited h

/-- R64 to R68: a boundary opens no record. -/
theorem WalkHoldsTable.records (m n : Nat) (h : WalkHoldsTable s) : WalkHoldsTable
    (s.setEntries (s.table.entries.map fun e => openedAt n (closedAt m (credited s e)))) := by
  refine WalkHoldsTable.of_records (s := s) rfl h fun e he ho => ?_
  obtain ⟨x, hx, rfl⟩ := List.mem_map.mp he
  exact ⟨x, hx, by rw [settled_of_open s m n x ho], by rw [settled_of_open s m n x ho],
    by rwa [settled_of_open s m n x ho] at ho⟩

end

/-! ### A basis change (R77, R78, R94) -/

section
variable {s : State} (n : Nat)

theorem basisChangeAt_unavailable (h : s.proj.state = .unavailable) :
    basisChangeAt n s = startWalkAt n s ∨ basisChangeAt n s = s := by
  simp only [basisChangeAt, h]
  split
  · exact .inl rfl
  · exact .inr rfl

/-- R79: a basis change that starts no walk finds none running. -/
theorem WalkLaw.basisChangeAt_holds (h : WalkLaw s) : WalkHoldsTable (basisChangeAt n s) := by
  have htable : (basisChangeAt n s).table = s.table := (basisChangeAt_touches s n).get .table
  have hfresh : (basisChangeAt n s).proj.walk = some (walkInputsAt n s) → WalkHoldsTable (basisChangeAt n s) := by
    intro hwalk w hw e he ho
    obtain rfl := Option.some.inj (hwalk.symm.trans hw)
    rw [htable] at he
    exact ⟨e, List.mem_filter.mpr ⟨he, by simp [isClosed_of_isOpen ho]⟩, rfl, rfl, rfl, rfl, ho⟩
  by_cases hu : s.proj.state = .unavailable
  · obtain heq | heq := basisChangeAt_unavailable n hu
    · exact hfresh (by rw [heq]; rfl)
    · rw [heq]
      refine walkHoldsTable_of_none (Option.not_isSome_iff_eq_none.mp fun hw => ?_)
      exact absurd (hu.symm.trans (h.2.1.mp hw)) nofun
  · exact hfresh (basisChangeAt_walk hu).2

theorem Untried.startWalkAt (h : Untried s) : Untried (startWalkAt n s) where
  walk := WalkLaw.stale (s := s) rfl rfl rfl (h.restarts.trans_le (Nat.zero_le 4)) h.walk
  cursor := h.cursor
  latched := h.latched
  trial := h.trial
  restarts := h.restarts

theorem basisChangeAt_untried (ht : s.proj.trial = .none) :
    basisChangeAt n s = startWalkAt n s ∨ basisChangeAt n s = s := by
  by_cases hu : s.proj.state = .unavailable
  · exact basisChangeAt_unavailable n hu
  · exact .inl (basisChangeAt_unhindered hu ht)

/-- With no trial in hand a basis change leaves none, and a walk that holds the table. -/
theorem Untried.basisChangeAt (h : Untried s) : Resting (basisChangeAt n s) := by
  refine ⟨?_, h.walk.basisChangeAt_holds n⟩
  obtain heq | heq := basisChangeAt_untried n h.trial <;> rw [heq]
  · exact h.startWalkAt n
  · exact h

theorem Resting.portLaw (h : Resting s) (hf : s.port.inFlight = none) : PortLaw s :=
  ⟨h.walk, h.holds, trialLaw_iff.mpr (.inl ⟨h.trial, hf, h.restarts⟩), replyLaw_of_none hf, h.cursor, h.latched⟩

theorem EngineLaw.untried (h : EngineLaw s) (ht : s.proj.trial = .none) (hr : s.proj.restarts = 0) : Untried s :=
  ⟨h.walk, h.cursor, h.latched, ht, hr⟩

/-- R94: a basis change restarts the trial in hand, or ends it with the reply to its request. -/
theorem EngineLaw.basisChangeAt (h : EngineLaw s) : EngineLaw (basisChangeAt n s) := by
  rcases trialLaw_iff.mp h.trial with ⟨ht, hf, hr⟩ | ⟨c, f, hc, hf, hkind, hvalid⟩
  · have hport : (Machine.basisChangeAt n s).port = s.port := by
      obtain heq | heq := basisChangeAt_untried n ht <;> rw [heq]
      rfl
    exact ((portLaw_iff _).mp (((h.untried ht hr).basisChangeAt n).portLaw (by rw [hport]; exact hf))).1
  · by_cases hu : s.proj.state = .unavailable
    · obtain heq | heq := basisChangeAt_unavailable n hu <;> rw [heq]
      · refine ⟨WalkLaw.stale (s := s) rfl rfl rfl h.walk.2.2.2 h.walk, ?_, h.reply, h.cursor, h.latched⟩
        exact trialLaw_iff.mpr (.inr ⟨c, f, hc, hf, hkind, fun hrun => absurd (hu.symm.trans (hvalid hrun)) nofun⟩)
      · exact h
    · by_cases hr : s.proj.restarts < 4
      · rw [basisChangeAt_restarts hu hc hr]
        exact ⟨WalkLaw.stale (s := s) rfl rfl rfl hr h.walk,
          trialLaw_iff.mpr (.inr ⟨c, f, rfl, hf, hkind, fun ⟨_, _, hrun⟩ => nomatch hrun⟩), h.reply, h.cursor, h.latched⟩
      · rw [basisChangeAt_ends hu hc (by omega) hf]
        exact ⟨WalkLaw.stale (s := s) rfl rfl rfl (Nat.zero_le 4) h.walk, trialLaw_iff.mpr (.inl ⟨rfl, rfl, rfl⟩),
          replyLaw_of_none rfl, h.cursor, h.latched⟩

end

/-! ### The laws through the operations of the plant -/

section
variable {s t : State}

theorem Untried.of_same (hp : t.proj = s.proj) (hc : t.port.cursor = s.port.cursor) (hl : t.port.latched = s.port.latched)
    (h : Untried s) : Untried t :=
  ⟨h.walk.of_proj hp, h.cursor.of_cursor hc, h.latched.of_latched hl, by rw [hp]; exact h.trial, by rw [hp]; exact h.restarts⟩

theorem Resting.of_same (hp : t.proj = s.proj) (ht : t.table = s.table) (hc : t.port.cursor = s.port.cursor)
    (hl : t.port.latched = s.port.latched) (h : Resting s) : Resting t :=
  ⟨h.toUntried.of_same hp hc hl, h.holds.of_same (by rw [hp]) ht⟩

theorem EngineLaw.of_same (hp : t.proj = s.proj) (hf : t.port.inFlight = s.port.inFlight) (hr : t.port.reply = s.port.reply)
    (hc : t.port.cursor = s.port.cursor) (hl : t.port.latched = s.port.latched) (h : EngineLaw s) : EngineLaw t where
  walk := h.walk.of_proj hp
  trial := by rw [trialLaw_iff, hp, hf]; exact trialLaw_iff.mp h.trial
  reply := by rw [ReplyLaw, busy, replyWaiting, hf, hr]; exact h.reply
  cursor := h.cursor.of_cursor hc
  latched := h.latched.of_latched hl

end

theorem Untried.raise {s : State} {n : Notice} (h : Untried s) (hn : n.bit &&& 0xF000#16 = 0) : Untried (raise n s) :=
  ⟨h.walk, h.cursor, h.latched.raise hn, h.trial, h.restarts⟩

/-- The operations of the plant keep what stands with no trial in hand. -/
theorem resting_acting : Acting Resting where
  ignores _ _ ht h := h.of_same (ht.get .proj) (ht.get .table) (by rw [ht.get .port]) (by rw [ht.get .port])
  raise _ hn _ h := ⟨h.toUntried.raise hn, h.holds⟩
  basisChangeAt n _ h := h.toUntried.basisChangeAt n
  mask _ s h := Resting.of_same (s := s) rfl rfl rfl rfl h
  records m n s h := ⟨Untried.of_same (s := s) rfl rfl rfl h.toUntried, h.holds.records m n⟩

/-- The operations of the plant keep the port's laws. -/
theorem portLaw_acting : Acting PortLaw := by
  have hparts : ∀ {s t}, PortLaw s → (EngineLaw s → EngineLaw t) → (WalkHoldsTable s → WalkHoldsTable t) → PortLaw t :=
    fun h he hw => (portLaw_iff _).mpr (((portLaw_iff _).mp h).imp he hw)
  refine ⟨⟨fun s t ht h => ?_, fun n hn s h => ?_⟩, fun n s h => ?_, fun m s h => ?_, fun m n s h => ?_⟩
  · exact hparts h (.of_same (ht.get .proj) (by rw [ht.get .port]) (by rw [ht.get .port]) (by rw [ht.get .port])
      (by rw [ht.get .port])) (.of_same (by rw [ht.get .proj]) (ht.get .table))
  · exact hparts h (fun he => ⟨he.walk, he.trial, he.reply, he.cursor, he.latched.raise hn⟩) id
  · obtain ⟨he, -⟩ := (portLaw_iff s).mp h
    exact (portLaw_iff _).mpr ⟨he.basisChangeAt n, he.walk.basisChangeAt_holds n⟩
  · exact hparts h (.of_same rfl rfl rfl rfl rfl) id
  · exact hparts h (.of_same rfl rfl rfl rfl rfl) (.records m n)

end Sys2Proof.Machine
end

section
/-! SUPPORT. O59: what each request's owner leaves of the port's laws (R4, R19, R24, R40, R41, R51 to R60, R97, R112 to R123, R130, R152, R163,
R169 to R180, R184 to R194). -/

namespace Sys2Proof.Machine

set_option Elab.async false

/-! ### Replies and candidates (R91, R92, R184, R187) -/

section
variable {s t : State}

theorem Resting.touches {fs : List Field} (h : Resting s) (ht : Touches fs s t) (hfs : fs ⊆ plantFields := by decide) :
    Resting t := resting_acting.touches h ht hfs

theorem Resting.basisChange (h : Resting s) : Resting (basisChange s) := resting_acting.basisChange s h

/-- R187: with no trial in hand a reply leaves the port's laws. -/
theorem Resting.answered (h : Resting s) (c : Byte) (r : Result) (p : List Byte) : PortLaw (answer c r p s) :=
  Resting.portLaw (Resting.of_same (s := s) rfl rfl rfl rfl h) rfl

/-- R91, R92: a candidate handed to the engine is in hand for its request, RUNNING only on a VALID projection. -/
theorem Resting.handCandidate {c : Candidate} {f : InFlight} (h : Resting s) (hr : s.port.reply = [])
    (hkind : c.amends = true ↔ f ≠ .admitEntry) : PortLaw (handCandidate c f s) := by
  obtain ⟨hrows, hstale, hvalid, -⟩ := h.walk
  refine ⟨⟨hrows, hstale, hvalid, Nat.zero_le 4⟩, h.holds, trialLaw_iff.mpr (.inr ⟨c, f, ?_, rfl, hkind, fun hrun => ?_⟩),
    replyLaw_of_empty hr, h.cursor, h.latched⟩ <;>
      obtain hwait | ⟨w, -, hstate, -, hrunning⟩ := placeTrial_cases c s
  · exact congrArg Trial.candidate? hwait
  · exact congrArg Trial.candidate? hrunning
  · obtain ⟨c', l, hrun⟩ := hrun
    exact nomatch hwait.symm.trans hrun
  · exact hstate

/-- The law over an owner, on the state the port hands it (R184). -/
def OwnerKeeps (owner : State → State) : Prop := ∀ s, Resting s → s.port.reply = [] → PortLaw (owner s)

theorem PortLaw.resting (h : PortLaw s) (hb : busy s = false) : Resting s := by
  obtain ⟨he, hholds⟩ := (portLaw_iff s).mp h
  rcases trialLaw_iff.mp he.trial with ⟨ht, -, hr⟩ | ⟨c, f, -, hf, -⟩
  · exact ⟨he.untried ht hr, hholds⟩
  · simp [busy, hf] at hb

theorem Resting.accepted (h : Resting s) : Resting s.accepted :=
  h.of_same (accepted_proj s) (accepted_table s) (by rw [accepted_port]) (by rw [accepted_port])

theorem discardFrame_portLaw (h : PortLaw s) : PortLaw (discardFrame s) :=
  (portLaw_iff _).mpr (((portLaw_iff s).mp h).imp (EngineLaw.of_same (s := s) rfl rfl rfl rfl rfl)
    (WalkHoldsTable.of_same (s := s) rfl rfl))

/-- R184, R186: a frame leaves the laws if its owner does. -/
theorem takeRequest_portLaw {r : Request} {h : Head} {owner : State → State} (ho : OwnerKeeps owner) (hs : PortLaw s) :
    PortLaw (takeRequest r h owner s) := by
  obtain ⟨-, h⟩ | ⟨-, -, h⟩ | ⟨-, hb, -, h⟩ | ⟨-, hb, -, -, h⟩ | ⟨-, hb, -, -, h⟩ := takeRequest_cases s r h owner <;> rw [h]
  · exact hs
  · exact discardFrame_portLaw hs
  · exact (hs.resting hb).accepted.answered _ _ _
  · exact (hs.resting hb).accepted.answered _ _ _
  · exact ho _ (hs.resting hb).accepted (accepted_reply s)

end

/-! ### The readers -/

section
variable {s : State} (h : Resting s)
include h

theorem ownReadStore_portLaw (i : Byte) : PortLaw (ownReadStore i s) := by
  unfold ownReadStore; split <;> exact h.answered _ _ _

theorem ownQueryEntry_portLaw (id : Half) : PortLaw (ownQueryEntry id s) := by
  unfold ownQueryEntry; split <;> exact h.answered _ _ _

theorem ownReadTrain_portLaw (i : Byte) : PortLaw (ownReadTrain i s) := by
  unfold ownReadTrain; split <;> exact h.answered _ _ _

theorem ownPatternRead_portLaw (i : Byte) : PortLaw (ownPatternRead i s) := by
  unfold ownPatternRead; split <;> exact h.answered _ _ _

theorem ownParamRead_portLaw (i : Byte) : PortLaw (ownParamRead i s) := by
  unfold ownParamRead; split <;> exact h.answered _ _ _

/-! ### The port and the cursor (R190 to R194) -/

/-- R190: a clear latches nothing. -/
theorem ownNotices_portLaw (v : Half) : PortLaw (ownNotices v s) := by
  have hlatched : (s.port.latched &&& ~~~v) &&& 0xF000#16 = 0 := by
    have hl : s.port.latched &&& 0xF000#16 = 0 := h.latched
    rw [BitVec.and_assoc, BitVec.and_comm (~~~v), ← BitVec.and_assoc, hl]
    exact BitVec.zero_and
  have hcleared : Resting (s.withPort { s.port with latched := s.port.latched &&& ~~~v }) :=
    ⟨⟨h.walk, h.cursor, hlatched, h.trial, h.restarts⟩, h.holds⟩
  exact hcleared.answered _ _ _

theorem answerMask_portLaw (r : Request) (m : Half) : PortLaw (answerMask r m s) :=
  (resting_acting.mask m s h).answered _ _ _

theorem Resting.setCursor {c : Cursor} (hc : c.currentRow + c.countLeft ≤ 192 ∧ c.baseRow + c.countBase ≤ 192
    ∧ c.countLeft ≤ c.countBase) : Resting (s.setCursor c) := ⟨⟨h.walk, hc, h.latched, h.trial, h.restarts⟩, h.holds⟩

/-- R192: a cursor is set on rows of the table. -/
theorem ownReadProjection_portLaw (row count reload view : Byte) : PortLaw (ownReadProjection row count reload view s) := by
  unfold ownReadProjection; split
  · split
    next hrange =>
      split
      · exact h.answered _ _ _
      · exact (h.setCursor ⟨hrange.2.2.2, hrange.2.2.2, le_rfl⟩).answered _ _ _
    · exact h.answered _ _ _
  · exact h.answered _ _ _

/-- R193: a page moves the cursor over its rows, or back to the first. -/
theorem Resting.advance : Resting (s.setCursor s.port.cursor.advance) := by
  obtain ⟨hrow, hbase, hleft⟩ := h.cursor
  have hpage : s.port.cursor.pageLength ≤ s.port.cursor.countLeft := by
    unfold Cursor.pageLength; split <;> exact Nat.min_le_left ..
  refine h.setCursor ?_
  unfold Cursor.advance; dsimp only
  split
  · exact ⟨hbase, hbase, le_rfl⟩
  · dsimp only; omega

theorem ownReadNext_portLaw : PortLaw (ownReadNext s) := by
  unfold ownReadNext; dsimp only
  split
  · exact h.answered _ _ _
  · exact h.advance.answered _ _ _

/-- R97: RESTART begins a walk as a basis change with no trial does. -/
theorem Resting.restartEngine : Resting (restartEngine s) := by
  have hwalk : s.proj.state ≠ .unavailable → Resting (startWalk s) := fun hs =>
    basisChange_startsWalk h.trial hs ▸ h.basisChange
  unfold Machine.restartEngine; split
  · exact h
  next hs => exact hwalk (by rw [hs]; decide)
  next hs => exact hwalk (by rw [hs]; decide)

/-- R194: RESTART clears the cursor and what is latched. -/
theorem ownRestart_portLaw : PortLaw (ownRestart s) := by
  have hport : Resting (restartPort s) :=
    ⟨⟨h.walk, by show CursorLaw _; simp [CursorLaw, restartPort, Cursor.cleared], BitVec.zero_and, h.trial, h.restarts⟩, h.holds⟩
  have horders : Resting (restartOrders (restartPort s)) :=
    (resting_acting.releaseBoth .restart _ hport).touches (touches_withOrders _ _)
  exact (horders.touches (restartSupervision_touches _)).restartEngine.answered _ _ _

/-! ### Account and stores (R4, R19, R24, R40, R41) -/

theorem ownPostReading_portLaw (r : ReadingArgs) : PortLaw (ownPostReading r s) :=
  Resting.answered ((resting_acting.judgeExcursions _ (resting_acting.baseAccount _
    (h.touches (touches_withAccount s _)))).touches (refreshReading_touches _)) _ _ _

theorem ownRebase_portLaw : PortLaw (ownRebase s) := by
  unfold ownRebase; split
  · exact h.answered _ _ _
  · exact (resting_acting.raise .rebased rfl _ (h.touches (touches_withAccount s _))).basisChange.answered _ _ _

theorem Resting.clearSide (side : Side) : Resting (clearSide side s) := kept_ite (resting_acting.setExcursion side .clear) h

theorem ownExcursionClear_portLaw (side : Byte) : PortLaw (ownExcursionClear side s) := by
  unfold ownExcursionClear; split
  · exact h.answered _ _ _
  · split
    · exact h.answered _ _ _
    · split
      · exact h.answered _ _ _
      · exact Resting.answered (kept_ite (fun _ hu => Resting.clearSide hu .discharge)
          (kept_ite (fun _ hu => Resting.clearSide hu .charge) h)) _ _ _

theorem ownStoreService_portLaw (i d : Byte) : PortLaw (ownStoreService i d s) := by
  unfold ownStoreService; split
  next j back _ _ =>
    by_cases hstate : (s.store j).state ≠ if back then .isolated else .available
    · rw [if_pos hstate]; exact h.answered _ _ _
    · rw [if_neg hstate]; exact ((h.touches (setStore_touches s _ _)).touches (recomputePools_touches _)).basisChange.answered _ _ _
  · exact h.answered _ _ _

theorem ownStoreSet_portLaw (i : Byte) (v : Word) : PortLaw (ownStoreSet i v s) := by
  unfold ownStoreSet; split
  · exact h.answered _ _ _
  · split
    · exact h.answered _ _ _
    · split
      · exact h.answered _ _ _
      · exact ((h.touches (setStore_touches s _ _)).touches (recomputePools_touches _)).answered _ _ _

/-! ### Trains (R112 to R114, R121 to R123) -/

/-- A record written in an event that is a basis change of its own (R119). -/
theorem Resting.putTrainCovered (x : TrainIx) (v : Train) : Resting (putTrainCovered x v s) :=
  h.touches (putTrainCovered_touches s x v)

/-- A train enters COOLDOWN by a request (R112 to R114). -/
theorem Resting.cooledByRequest (x : TrainIx) (v : Train) :
    Resting (Machine.basisChange (raise .trainEvent (Machine.putTrainCovered x v s))) :=
  (resting_acting.trainEvent _ (h.putTrainCovered x v)).basisChange

theorem ownTrainReset_portLaw (i : Byte) : PortLaw (ownTrainReset i s) := by
  unfold ownTrainReset; split
  · exact h.answered _ _ _
  · split
    · exact h.answered _ _ _
    · exact (h.cooledByRequest _ _).answered _ _ _

theorem ownTrainUnlock_portLaw (i : Byte) : PortLaw (ownTrainUnlock i s) := by
  unfold ownTrainUnlock; split
  · exact h.answered _ _ _
  · split
    · exact h.answered _ _ _
    · exact (h.cooledByRequest _ _).answered _ _ _

theorem ownTrainService_portLaw (i d : Byte) : PortLaw (ownTrainService i d s) := by
  unfold ownTrainService; split
  · split
    · exact (h.putTrainCovered _ _).basisChange.answered _ _ _
    · exact h.answered _ _ _
  · split
    · exact h.answered _ _ _
    · exact (h.cooledByRequest _ _).answered _ _ _
  · exact h.answered _ _ _

theorem ownTrainPriority_portLaw (d : Byte) (l : List Byte) : PortLaw (ownTrainPriority d l s) := by
  unfold ownTrainPriority; split
  · exact h.answered _ _ _
  · exact (h.touches (rankTrains_touches s _)).answered _ _ _

theorem ownHeaterAssign_portLaw (i v : Byte) : PortLaw (ownHeaterAssign i v s) := by
  have hassigned : ∀ x a, Resting (assignHeater x a s) := fun x a => by
    unfold assignHeater; split
    · exact h
    · exact resting_acting.putTrain x _ s h
  unfold ownHeaterAssign; split
  · split
    · exact (hassigned _ _).answered _ _ _
    · exact h.answered _ _ _
  · exact h.answered _ _ _

theorem ownHeaterTimer_portLaw (k : Byte) (p o : Half) : PortLaw (ownHeaterTimer k p o s) := by
  unfold ownHeaterTimer; split
  · exact h.answered _ _ _
  · split
    · exact (h.touches (setCycle_touches s _ _)).answered _ _ _
    · exact h.answered _ _ _

/-! ### Orders and the clock (R130, R152, R163) -/

theorem ownPatternWrite_portLaw (a : PatternArgs) : PortLaw (ownPatternWrite a s) := by
  unfold ownPatternWrite; split
  · exact h.answered _ _ _
  · split
    · exact h.answered _ _ _
    · exact (h.touches (touches_withOrders s _)).answered _ _ _

theorem ownOrderRelease_portLaw (d : Byte) : PortLaw (ownOrderRelease d s) := by
  unfold ownOrderRelease; split
  · exact h.answered _ _ _
  · exact Resting.answered (Kept.foldl _ (fun d => resting_acting.releaseAct d .request) _ s h) _ _ _

theorem ownClockSet_portLaw (n : Word) (d c : Half) : PortLaw (ownClockSet n d c s) := by
  unfold ownClockSet; split
  · exact h.answered _ _ _
  · split
    · exact h.answered _ _ _
    · exact Resting.answered (resting_acting.setClock _ _ _ s h) _ _ _

/-! ### Modes, supervision and limits (R169 to R180) -/

theorem Resting.changeMode (m : Mode) : Resting (changeMode m s) := resting_acting.changeMode m s h

theorem Resting.clearFailures : Resting (clearFailures s) := h.touches (clearFailures_touches s)

theorem ownEnterHold_portLaw : PortLaw (ownEnterHold s) := by
  unfold ownEnterHold; split
  · exact (h.changeMode .hold).answered _ _ _
  all_goals exact h.answered _ _ _

theorem ownEnterSafe_portLaw : PortLaw (ownEnterSafe s) := by
  unfold ownEnterSafe; split
  · exact (h.changeMode .safe).answered _ _ _
  · exact (h.changeMode .safe).answered _ _ _
  all_goals exact h.answered _ _ _

theorem ownResume_portLaw : PortLaw (ownResume s) := by
  unfold ownResume; split
  · exact (h.changeMode .normal).clearFailures.answered _ _ _
  · exact h.answered _ _ _

theorem ownRecover_portLaw : PortLaw (ownRecover s) := by
  unfold ownRecover
  repeat' split
  · exact h.answered _ _ _
  · exact h.answered _ _ _
  · exact h.answered _ _ _
  · exact (h.changeMode .normal).clearFailures.answered _ _ _

theorem ownForceExpiry_portLaw : PortLaw (ownForceExpiry s) := by
  unfold ownForceExpiry
  repeat' split
  · exact h.answered _ _ _
  · exact h.answered _ _ _
  · exact Resting.answered (resting_acting.supervisionFailure s h) _ _ _

theorem ownKeepalive_portLaw : PortLaw (ownKeepalive s) := by
  unfold ownKeepalive; dsimp only
  split
  · exact Resting.answered (resting_acting.supervisionFailure s h) _ _ _
  · exact (h.touches (reloadTimer_touches s)).answered _ _ _

theorem ownSupervisionSet_portLaw (a : SupervisionArgs) : PortLaw (ownSupervisionSet a s) := by
  unfold ownSupervisionSet; split
  · split
    · exact h.answered _ _ _
    · exact (h.touches (touches_withSupervision s _)).answered _ _ _
  · exact h.answered _ _ _

theorem ownParamWrite_portLaw (i : Byte) (v : Word) : PortLaw (ownParamWrite i v s) := by
  unfold ownParamWrite; split
  · exact h.answered _ _ _
  · split
    · exact h.answered _ _ _
    · split
      · exact (h.touches (writeParam_touches s _ _)).answered _ _ _
      · exact h.answered _ _ _

theorem ownLockLimits_portLaw : PortLaw (ownLockLimits s) := by
  unfold ownLockLimits
  repeat' split
  · exact h.answered _ _ _
  · exact h.answered _ _ _
  · exact h.answered _ _ _
  · exact h.answered _ _ _
  · exact ((h.touches (touches_withLocked s true)).changeMode .normal).clearFailures.answered _ _ _

/-! ### The table (R51, R54, R57, R58, R60) -/

/-- A record written or taken out in an event that is a basis change of its own. -/
theorem Resting.setEntries (es : List Entry) : Untried (s.setEntries es) := Untried.of_same (s := s) rfl rfl rfl h.toUntried

theorem Resting.putEntry (e : Entry) : Untried (putEntry e s) := h.setEntries _

theorem ownWithdraw_portLaw (k : Client) (id : Half) : PortLaw (ownWithdraw k id s) := by
  unfold ownWithdraw; split
  · exact h.answered _ _ _
  · split
    · split
      · exact h.answered _ _ _
      · exact ((h.setEntries _).basisChangeAt _).answered _ _ _
    · split
      · exact (((h.putEntry _).raise (n := .entryClosed) rfl).basisChangeAt _).answered _ _ _
      · exact h.answered _ _ _

/-- R60: a slot that is freed takes no open record out of the walk. -/
theorem Resting.freeSlot (id : Nat) : Resting (freeSlot id s) :=
  ⟨h.setEntries _, WalkHoldsTable.of_records (s := s) rfl h.holds fun e he ho =>
    ⟨e, (List.mem_filter.mp he).1, rfl, rfl, ho⟩⟩

theorem ownSettle_portLaw (id : Half) : PortLaw (ownSettle id s) := by
  unfold ownSettle; split
  · exact h.answered _ _ _
  · split
    · exact (h.freeSlot _).answered _ _ _
    · exact h.answered _ _ _

theorem ownAdmit_portLaw (hr : s.port.reply = []) (a : AdmitArgs) : PortLaw (ownAdmit a s) := by
  unfold ownAdmit; split
  · exact h.answered _ _ _
  · split
    · exact h.answered _ _ _
    · split
      · exact h.answered _ _ _
      · exact h.handCandidate hr (by simp)

theorem ownAmend_portLaw (hr : s.port.reply = []) (k : Client) (a : AmendArgs) : PortLaw (ownAmend k a s) := by
  unfold ownAmend; split
  · exact h.answered _ _ _
  · split
    · exact h.answered _ _ _
    · dsimp only
      split
      · exact h.answered _ _ _
      · split
        · exact h.answered _ _ _
        · split
          · exact h.answered _ _ _
          · split
            · exact h.handCandidate hr (by simp)
            · split
              · exact h.answered _ _ _
              · exact ((h.putEntry _).basisChangeAt _).answered _ _ _

end

end Sys2Proof.Machine
end

section
/-! SUPPORT. O59: the two walks that complete (R89, R93), each command, and every step. -/

namespace Sys2Proof.Machine

set_option Elab.async false

/-! ### A full walk completes (R89) -/

theorem DemotionRun.rows_length {w : WalkInputs} : ∀ {excluded : List (Entry × Risk)} {included : List Entry} {marks : List Nat}
    {included' : List Entry} {marks' : List Nat} {rows : List Row},
    DemotionRun w excluded included marks included' marks' rows → rows.length = 192
  | [], _, _, _, _, _, h => h.2.1.1
  | _ :: _, _, _, _, _, _, ⟨_, _, _, _, _, _, _, _, _, _, _, hrest⟩ => hrest.rows_length

theorem fullWalk_rows_length (w : WalkInputs) : (fullWalk w).rows.length = 192 := by
  obtain ⟨_, _, _, hrun, -⟩ := walkDemotesByTheRules w
  exact hrun.rows_length

section
variable {s : State} (w : WalkInputs)

/-- R89: the trial that waited waits on or runs. -/
theorem completeWalk_candidate : (completeWalk w s).proj.trial.candidate? = s.proj.trial.candidate? := by
  by_cases hwait : ∃ c, s.proj.trial = .waiting c
  · obtain ⟨c, hc⟩ := hwait
    rw [completeWalk_trial_waiting w s hc, hc]
    split <;> rfl
  · rw [completeWalk_trial_other w s fun c hc => hwait ⟨c, hc⟩]

theorem completeWalk_latchedLaw (h : LatchedLaw s) : LatchedLaw (completeWalk w s) := by
  have hwritten : LatchedLaw (walkWritten w s) := by
    refine LatchedLaw.raise rfl (kept_ite (fun u hu => LatchedLaw.raise rfl hu) (kept_ite (fun u hu => LatchedLaw.raise rfl hu) ?_))
    exact h
  exact hwritten.of_latched (by rw [completeWalk_port])

/-- R89: the rows and the state of a VALID projection, and the trial that may then run. -/
theorem EngineLaw.completeWalk (h : EngineLaw s) : EngineLaw (completeWalk w s) := by
  have hproj := completeWalk_proj w s
  have hport : (Machine.completeWalk w s).port = { s.port with latched := (Machine.completeWalk w s).port.latched } := by
    rw [completeWalk_port, walkWritten_port]
  refine ⟨?_, trialLaw_iff.mpr ?_, ?_, h.cursor.of_cursor (by rw [hport]), completeWalk_latchedLaw w h.latched⟩
  · rw [WalkLaw, hproj]
    exact ⟨fullWalk_rows_length w, by simp [Projection.completedWith], fun _ => rfl, h.walk.2.2.2⟩
  · rcases trialLaw_iff.mp h.trial with ⟨ht, hf, hr⟩ | ⟨c, f, hc, hf, hkind, -⟩
    · have hnone := completeWalk_trial_other w s fun c hc => nomatch ht.symm.trans hc
      exact .inl ⟨hnone.trans ht, by rw [hport]; exact hf, by rw [hproj]; exact hr⟩
    · exact .inr ⟨c, f, (completeWalk_candidate w).trans hc, by rw [hport]; exact hf, hkind, fun _ => by rw [hproj]; rfl⟩
  · rw [ReplyLaw, busy, replyWaiting, hport]
    exact h.reply

end

theorem fullWalkCompletes_portLaw : Kept PortLaw fullWalkCompletes := by
  intro s h
  unfold fullWalkCompletes; split
  · exact h
  next w _ =>
    exact (portLaw_iff _).mpr ⟨((portLaw_iff s).mp h).1.completeWalk w, walkHoldsTable_of_none (by rw [completeWalk_proj]; rfl)⟩

/-! ### A trial walk completes (R52, R55, R93) -/

section
variable {s : State} (h : Resting s)
include h

theorem completeAdmit_portLaw (e : Entry) : PortLaw (completeAdmit e s) := by
  by_cases hg : gateClosed s e = true
  · rw [completeAdmit_gateClosed hg]; exact h.answered _ _ _
  · have hstored : Untried (storeEntry (storedAs s e) s) := Untried.of_same (s := s) rfl rfl rfl h.toUntried
    rw [completeAdmit_stored hg]
    exact (hstored.basisChangeAt _).answered _ _ _

theorem completeAmend_portLaw (k : Client) (id : Nat) (m : Amendment) : PortLaw (completeAmend k id m s) := by
  unfold completeAmend; split
  · exact h.answered _ _ _
  next e _ =>
    split
    · exact h.answered _ _ _
    · split
      · exact h.answered _ _ _
      · have hrecovered : Untried (recoverIf e.status (putEntry { amended e m with status := .admitted } s)) :=
          kept_ite (fun _ hu => hu.raise rfl) (h.putEntry _)
        exact (hrecovered.basisChangeAt _).answered _ _ _

end

theorem EngineLaw.endTrial {s : State} (h : EngineLaw s) (hh : WalkHoldsTable s) : Resting (endTrial s) :=
  ⟨⟨⟨h.walk.1, h.walk.2.1, h.walk.2.2.1, Nat.zero_le 4⟩, h.cursor, h.latched, rfl, rfl⟩, hh⟩

theorem trialCompletes_portLaw : Kept PortLaw trialCompletes := by
  intro s h
  unfold trialCompletes; split
  next c included w ht _ =>
    obtain ⟨he, hh⟩ := (portLaw_iff s).mp h
    have hover := he.endTrial hh
    obtain ⟨hnone, -⟩ | ⟨_, f, -, hf, -⟩ := trialLaw_iff.mp he.trial
    · exact nomatch ht.symm.trans hnone
    · cases hj : trialJudgement w s.proj.rows c included with
      | some r => rw [judgeTrial_refuses hj hf]; exact hover.answered _ _ _
      | none =>
        rw [judgeTrial_accepts hj]
        cases f with
        | admitEntry => rw [completeAccepted_admit (s := endTrial s) hf]; exact completeAdmit_portLaw hover _
        | amend k id power price reference =>
          rw [completeAccepted_amend (s := endTrial s) hf]; exact completeAmend_portLaw hover _ _ _
  · exact h

/-! ### The commands -/

section
variable {s t : State}

theorem request_portLaw (c : Instr) (hc : c.request? ≠ none) (hs : PortLaw s) (h : exec c s = .next t) : PortLaw t := by
  have htaken : ∀ {r hd owner}, OwnerKeeps owner → exec c s = .next (takeRequest r hd owner s) → PortLaw t := fun ho hexec => by
    obtain rfl := Host.Outcome.next.inj (h.symm.trans hexec)
    exact takeRequest_portLaw ho hs
  cases c with
  | identify hd | readAccount hd | projectionState hd | orderState hd | clockRead hd =>
    exact htaken (fun u hu _ => hu.answered _ _ _) rfl
  | findInterval hd n f q | findReference hd n f q => exact htaken (fun u hu _ => hu.answered _ _ _) rfl
  | notices hd v => exact htaken (fun u hu _ => ownNotices_portLaw hu v) rfl
  | noticeMaskSet hd v | noticeMaskClear hd v => exact htaken (fun u hu _ => answerMask_portLaw hu _ _) rfl
  | restart hd => exact htaken (fun u hu _ => ownRestart_portLaw hu) rfl
  | postReading hd r => exact htaken (fun u hu _ => ownPostReading_portLaw hu r) rfl
  | rebase hd => exact htaken (fun u hu _ => ownRebase_portLaw hu) rfl
  | excursionClear hd d => exact htaken (fun u hu _ => ownExcursionClear_portLaw hu d) rfl
  | storeService hd i d => exact htaken (fun u hu _ => ownStoreService_portLaw hu i d) rfl
  | storeSet hd i v => exact htaken (fun u hu _ => ownStoreSet_portLaw hu i v) rfl
  | readStore hd i => exact htaken (fun u hu _ => ownReadStore_portLaw hu i) rfl
  | admitEntry hd a => exact htaken (fun u hu hr => ownAdmit_portLaw hu hr a) rfl
  | amend hd a => exact htaken (fun u hu hr => ownAmend_portLaw hu hr hd.client a) rfl
  | withdraw hd id => exact htaken (fun u hu _ => ownWithdraw_portLaw hu hd.client id) rfl
  | settle hd id => exact htaken (fun u hu _ => ownSettle_portLaw hu id) rfl
  | queryEntry hd id => exact htaken (fun u hu _ => ownQueryEntry_portLaw hu id) rfl
  | readProjection hd a b d e => exact htaken (fun u hu _ => ownReadProjection_portLaw hu a b d e) rfl
  | readNext hd => exact htaken (fun u hu _ => ownReadNext_portLaw hu) rfl
  | trainService hd i d => exact htaken (fun u hu _ => ownTrainService_portLaw hu i d) rfl
  | trainReset hd i => exact htaken (fun u hu _ => ownTrainReset_portLaw hu i) rfl
  | trainUnlock hd i => exact htaken (fun u hu _ => ownTrainUnlock_portLaw hu i) rfl
  | trainPriority hd d l => exact htaken (fun u hu _ => ownTrainPriority_portLaw hu d l) rfl
  | heaterAssign hd i v => exact htaken (fun u hu _ => ownHeaterAssign_portLaw hu i v) rfl
  | heaterTimer hd k p o => exact htaken (fun u hu _ => ownHeaterTimer_portLaw hu k p o) rfl
  | readTrain hd i => exact htaken (fun u hu _ => ownReadTrain_portLaw hu i) rfl
  | patternWrite hd a => exact htaken (fun u hu _ => ownPatternWrite_portLaw hu a) rfl
  | patternRead hd i => exact htaken (fun u hu _ => ownPatternRead_portLaw hu i) rfl
  | orderRelease hd d => exact htaken (fun u hu _ => ownOrderRelease_portLaw hu d) rfl
  | clockSet hd n d k => exact htaken (fun u hu _ => ownClockSet_portLaw hu n d k) rfl
  | paramWrite hd i v => exact htaken (fun u hu _ => ownParamWrite_portLaw hu i v) rfl
  | paramRead hd i => exact htaken (fun u hu _ => ownParamRead_portLaw hu i) rfl
  | lockLimits hd => exact htaken (fun u hu _ => ownLockLimits_portLaw hu) rfl
  | supervisionSet hd a => exact htaken (fun u hu _ => ownSupervisionSet_portLaw hu a) rfl
  | keepalive hd => exact htaken (fun u hu _ => ownKeepalive_portLaw hu) rfl
  | forceExpiry hd => exact htaken (fun u hu _ => ownForceExpiry_portLaw hu) rfl
  | resume hd => exact htaken (fun u hu _ => ownResume_portLaw hu) rfl
  | recover hd => exact htaken (fun u hu _ => ownRecover_portLaw hu) rfl
  | enterHold hd => exact htaken (fun u hu _ => ownEnterHold_portLaw hu) rfl
  | enterSafe hd => exact htaken (fun u hu _ => ownEnterSafe_portLaw hu) rfl
  | _ => exact absurd rfl hc

/-- R185, R186: a frame that makes no request is answered at once, or discarded. -/
theorem portLaw_unlessBusy {f : State → State} (hf : ∀ u, PortLaw u → Resting u → PortLaw (f u)) :
    Kept PortLaw fun s => if busy s then discardFrame s else f s := by
  intro s hs
  dsimp only
  split
  · exact discardFrame_portLaw hs
  next hb => exact hf s hs (hs.resting (by simpa using hb))

theorem event_portLaw (c : Instr) (hc : c.request? = none) (hs : PortLaw s) (h : exec c s = .next t) : PortLaw t := by
  have hP := portLaw_acting
  have hheld : ∀ {f}, Kept PortLaw f → exec c s = .next (unlessHeld f s) → PortLaw t := fun hf hexec => by
    obtain rfl := Host.Outcome.next.inj (h.symm.trans hexec)
    exact unlessHeld_kept hf s hs
  have hframe : c.fields ⊆ plantFields → PortLaw t := fun hfields => by
    obtain ⟨t', ht, htouch⟩ := exec_frame c s
    obtain rfl := Host.Outcome.next.inj (h.symm.trans ht)
    exact hP.touches hs htouch hfields
  cases c with
  | powerOnReset lines =>
    obtain rfl := Host.Outcome.next.inj h
    exact hP.touches (hP.touches (hP.touches (afterReset_portLaw lines.trip) (touches_withPor _ _))
      (touches_withFreeCount _ _)) (touches_withPending _ _)
  | secondEvent how => exact hheld (hP.secondNow how) rfl
  | boundary how => exact hheld (fun _ => kept_ite (hP.boundaryNow how)) rfl
  | syncPulse how => exact hheld (fun _ => kept_ite (hP.pulseNow how)) rfl
  | startingExpiry x => exact hheld (fun _ => kept_ite (hP.enterReady x)) rfl
  | readyMaxExpiry x => exact hheld (fun _ => kept_ite (hP.enterStopping x)) rfl
  | stopTimeExpiry x => exact hheld (fun _ => kept_ite (hP.enterCooldown x)) rfl
  | minDownExpiry x => exact hheld (fun _ => kept_ite (hP.enterIdle x)) rfl
  | hotWindowExpiry x => exact hheld (fun _ => kept_ite fun u hu => hP.putTrain x _ u hu) rfl
  | confirmWindowExpiry d => exact hheld (fun _ => kept_ite (hP.releaseAct d _)) rfl
  | holdExpiry d => exact hheld (fun _ => kept_ite (hP.releaseAct d _)) rfl
  | supervisionExpiry => exact hheld (fun _ => kept_ite hP.countSupervision) rfl
  | fullWalkComplete => exact hheld fullWalkCompletes_portLaw rfl
  | trialWalkComplete => exact hheld trialCompletes_portLaw rfl
  | tripAssertion x => exact hheld (hP.tripAssert x) rfl
  | orderByte v f => exact hheld (hP.takeOrderByte v f) rfl
  | telegramGapTimeout =>
    refine hheld (fun u hu => ?_) rfl
    split
    · exact hu
    · exact hP.touches hu (discardTelegram_touches u)
  | frameWrittenWhileBusy => exact hheld (fun _ => kept_ite fun _ => discardFrame_portLaw) rfl
  | frameFailingChecks check =>
    have haccepted : ∀ u, Resting u → Resting (acceptFrame u) := fun u => Resting.of_same rfl rfl rfl rfl
    exact hheld (portLaw_unlessBusy fun u _ hu => (haccepted u hu).answered _ _ _) rfl
  | unknownRequest k code =>
    refine hheld (portLaw_unlessBusy fun u hu hr => ?_) rfl
    split
    · exact hu
    · exact hr.accepted.answered _ _ _
  | readingStale | heaterCycleWrap _ | tripRelease _ => exact hframe (by simp [Instr.fields])
  | _ => exact absurd hc nofun

theorem exec_portLaw (c : Instr) (hs : PortLaw s) (h : exec c s = .next t) : PortLaw t := by
  by_cases hc : c.request? = none
  · exact event_portLaw c hc hs h
  · exact request_portLaw c hc hs h

end

end Sys2Proof.Machine
end

section
open Sys2Proof Sys2Proof.Machine

set_option Elab.async false

/-- Settles O59: each command keeps the laws of the port, and so does each response that is due. -/
theorem stepKeepsPortLaw : Obligations.StepKeepsPortLaw := by
  intro s t hs h
  unfold step at h
  split at h
  next =>
    obtain rfl := Host.Outcome.next.inj h
    exact unlessHeld_kept portLaw_acting.respondNext s hs
  next c rest _ =>
    exact exec_portLaw (s := s.withPending rest) c (portLaw_acting.touches hs (touches_withPending s rest)) h

end

section
/-! SUPPORT. How the sequencer moves a train (R101 to R117): the moves a train record can make, and, of a law that reads of the plant only
the states and setpoints of the trains, the mode, the limits and the lock, and that these moves keep, which operations of the blocks
keep it. -/

namespace Sys2Proof.Machine

set_option Elab.async false

/-! ### One move of a train -/

/-- What the sequencer may write as the record of a train: its state and setpoint stand; it goes down, at 0 kW or as it was at rest; it
starts (R102); it becomes READY, from STARTING or RUNNING (R103, R107); or it carries power (R105, R106). -/
inductive Move (s : State) (x : TrainIx) (v : Train) : Prop where
  | stands (hstate : v.state = (s.train x).state) (hset : v.setpoint = (s.train x).setpoint)
  | downs (hdown : v.state.stoppable = false)
      (hset : v.setpoint = 0 ∨ (s.train x).state ≠ .running ∧ v.setpoint = (s.train x).setpoint)
  | starts (hstate : v.state = .starting) (hidle : (s.train x).state = .idle) (hset : v.setpoint = (s.train x).setpoint)
      (hmode : s.mode = .normal)
  | readies (hstate : v.state = .ready) (hup : (s.train x).state.stoppable = true) (hset : v.setpoint = 0)
  | powers (hstate : v.state = .running) (hup : (s.train x).state.stoppable = true)
      (hrange : (paramsOf s x).tpMin ≤ (paramsOf s x).tpMax →
        (paramsOf s x).tpMin ≤ v.setpoint ∧ v.setpoint ≤ (paramsOf s x).tpMax)
      (hside : v.setpoint = 0 ∨ sideAtZero s x.side.other = true)

/-- From s to t no train's state or setpoint moves, nor the mode, the limits or the lock. -/
structure SamePlant (s t : State) : Prop where
  state : ∀ x, (t.train x).state = (s.train x).state
  setpoint : ∀ x, (t.train x).setpoint = (s.train x).setpoint
  mode : t.mode = s.mode
  limits : t.limits = s.limits
  locked : t.locked = s.locked

theorem SamePlant.of_trains {s t : State} (ht : t.trains = s.trains) (hm : t.mode = s.mode) (hl : t.limits = s.limits)
    (hk : t.locked = s.locked) : SamePlant s t :=
  have htrain : ∀ x, t.train x = s.train x := fun x => congrArg (fun v : Trains => v.train.get x) ht
  ⟨fun x => congrArg Train.state (htrain x), fun x => congrArg Train.setpoint (htrain x), hm, hl, hk⟩

theorem SamePlant.of_touches {fs : List Field} {s t : State} (h : Touches fs s t) (ht : .trains ∉ fs := by decide)
    (hm : .mode ∉ fs := by decide) (hl : .limits ∉ fs := by decide) (hk : .locked ∉ fs := by decide) : SamePlant s t :=
  .of_trains (h .trains ht) (h .mode hm) (h .limits hl) (h .locked hk)

theorem clampNat_range {lo hi : Nat} (h : lo ≤ hi) (n : Nat) : lo ≤ clampNat lo hi n ∧ clampNat lo hi n ≤ hi :=
  ⟨Nat.le_max_left _ _, Nat.max_le.mpr ⟨h, Nat.min_le_left _ _⟩⟩

/-- P reads of the plant the states and setpoints, the mode, the limits and the lock alone, and every move of a train keeps it. -/
structure Sequenced (P : State → Prop) : Prop where
  reads : ∀ ⦃s t⦄, SamePlant s t → P s → P t
  moves : ∀ ⦃s x v⦄, Move s x v → P s → P (s.setTrain x v)

namespace Sequenced

section
variable {P : State → Prop} (hP : Sequenced P)
include hP

theorem ignores {fs : List Field} (ht : .trains ∉ fs) (hm : .mode ∉ fs) (hl : .limits ∉ fs) (hk : .locked ∉ fs) :
    Ignores P fs := fun _ _ hf => hP.reads (.of_touches hf ht hm hl hk)

/-- What touches neither the trains nor what rules them keeps the law. -/
theorem touches {fs : List Field} {s t : State} (hs : P s) (h : Touches fs s t) (ht : .trains ∉ fs := by decide)
    (hm : .mode ∉ fs := by decide) (hl : .limits ∉ fs := by decide) (hk : .locked ∉ fs := by decide) : P t :=
  hP.ignores ht hm hl hk h hs

theorem basisChange : Kept P basisChange := fun s hs => hP.touches hs (basisChange_touches s)

theorem raise (n : Notice) : Kept P (raise n) := fun s hs => hP.touches hs (raise_touches s n)

theorem answer (c : Byte) (r : Result) (p : List Byte) : Kept P (answer c r p) := fun s hs =>
  hP.touches hs (answer_touches s c r p)

omit hP in
theorem eachTrain {f : TrainIx → State → State} (hf : ∀ x, Kept P (f x)) (xs : List TrainIx) : Kept P (eachTrain f xs) :=
  fun s hs => Kept.foldl (fun u x => f x u) hf xs s hs

/-! ### The train sequencer (R101 to R117) -/

section
variable {s : State} {x : TrainIx} {v : Train}

/-- R119: a class that is judged is neither a state nor a setpoint. -/
theorem putTrainCovered (h : Move s x v) (hs : P s) : P (putTrainCovered x v s) := by
  refine hP.moves ?_ hs
  cases h with
  | stands hstate hset => exact .stands hstate hset
  | downs hdown hset => exact .downs hdown hset
  | starts hstate hidle hset hmode => exact .starts hstate hidle hset hmode
  | readies hstate hup hset => exact .readies hstate hup hset
  | powers hstate hup hrange hside => exact .powers hstate hup hrange hside

theorem putTrain (h : Move s x v) (hs : P s) : P (putTrain x v s) := by
  have hset := hP.putTrainCovered h hs
  unfold Machine.putTrain; dsimp only
  split
  · exact hset
  · exact hP.basisChange _ hset

end

section
variable (x : TrainIx)

theorem releaseStore : Kept P (releaseStore x) := fun s hs => hP.touches hs (releaseStore_touches s x)

/-- R108: a train that enters STOPPING goes to 0 kW. -/
theorem stopFrom (v : Train) : Kept P (stopFrom x v) := fun s hs =>
  hP.putTrain (.downs rfl (.inl rfl)) (hP.releaseStore x s hs)

theorem enterStopping : Kept P (enterStopping x) := fun s => hP.stopFrom x _ s

section
variable {s : State} (hs : P s)
include hs

theorem enterReady (hx : (s.train x).state.stoppable = true) : P (enterReady x s) :=
  hP.raise _ _ (hP.putTrain (.readies rfl hx rfl) hs)

theorem enterCooldown (hx : (s.train x).state ≠ .running) : P (enterCooldown x s) :=
  hP.raise _ _ (hP.putTrain (.downs rfl (.inr ⟨hx, rfl⟩)) hs)

theorem enterIdle (hx : (s.train x).state ≠ .running) : P (enterIdle x s) :=
  hP.raise _ _ (hP.putTrain (.downs rfl (.inr ⟨hx, rfl⟩)) hs)

end

theorem expire : Kept P (expire x) := by
  intro s hs
  unfold Machine.expire; split
  next hx => exact hP.enterReady x hs (by rw [hx]; rfl)
  · exact hP.enterStopping x s hs
  next hx => exact hP.enterCooldown x hs (by rw [hx]; decide)
  next hx => exact hP.enterIdle x hs (by rw [hx]; decide)
  all_goals exact hP.moves (.stands rfl rfl) hs

/-- R102: a start is taken of an IDLE train in NORMAL. -/
theorem requestStart : Kept P (requestStart x) := by
  intro s hs
  unfold Machine.requestStart; dsimp only
  split
  · exact hs
  next hjudged =>
    split
    · split
      · exact hs
      · exact hP.raise _ _ (hP.moves (.stands rfl rfl) hs)
    · have hstart : ((s.train x).state = .idle ∧ s.mode = .normal) ∧ excursionOf s.account x.side = .clear := by
        simpa [startJudged] using hjudged
      obtain ⟨⟨hidle, hmode⟩, -⟩ := hstart
      exact hP.putTrain (.starts rfl hidle rfl hmode) hs

/-- R105: a load is taken of a READY train while the other side is at 0 kW, and begins at TP_MIN. -/
theorem requestLoad : Kept P (requestLoad x) := by
  intro s hs
  unfold Machine.requestLoad; split
  next htaken =>
    have hload : ((s.train x).state = .ready ∧ s.mode ≠ .safe) ∧ sideAtZero s x.side.other = true := by
      simpa [loadTaken] using htaken
    obtain ⟨⟨hready, -⟩, hside⟩ := hload
    have hput := hP.putTrain (v := { s.train x with
      state := .running, setpoint := (paramsOf s x).tpMin, runTime := 0, stateTimer := 0 })
      (.powers rfl (by rw [hready]; rfl) (fun hle => ⟨Nat.le_refl _, hle⟩) (.inr hside)) hs
    exact hP.raise _ _ (hP.touches hput (assignStore_touches _ x))
  · exact hs

/-- R106: a setpoint is held to its limits, and above 0 kW taken while the other side is at 0 kW. -/
theorem requestSetpoint (kw : Nat) : Kept P (requestSetpoint x kw) := by
  intro s hs
  unfold Machine.requestSetpoint; dsimp only
  split
  · exact hs
  next htaken =>
    rw [not_or, not_not, not_and_or, Nat.not_lt, Nat.le_zero, Bool.not_eq_false] at htaken
    obtain ⟨hrun, hside⟩ := htaken
    exact hP.moves (.powers hrun (by rw [hrun]; rfl) (fun hle => clampNat_range hle kw) hside) hs

theorem requestUnload : Kept P (requestUnload x) := by
  intro s hs
  unfold Machine.requestUnload; split
  next htaken =>
    have hrun : (s.train x).state = .running := by
      simpa using (Bool.and_eq_true_iff.mp (show atTpMin s x = true from htaken)).1
    have hup : (s.train x).state.stoppable = true := by rw [hrun]; rfl
    exact hP.raise _ _ (hP.putTrain (.readies rfl hup rfl) (hP.releaseStore x s hs))
  · exact hs

theorem requestStop : Kept P (requestStop x) := fun _ => kept_ite (hP.enterStopping x)

theorem safeStop : Kept P (safeStop x) := fun _ => kept_ite (hP.enterStopping x)

theorem excursionStop : Kept P (excursionStop x) := fun s =>
  kept_ite (hP.stopFrom x { s.train x with excursionStopped := true })

theorem excursionChanged (d : Side) (e : Excursion) : Kept P (excursionChanged d e) := by
  intro s hs
  unfold Machine.excursionChanged; split
  · exact eachTrain hP.excursionStop _ s hs
  · exact hs
  · exact eachTrain (f := clearExcursionStopped)
      (fun x u hu => hP.moves (v := { u.train x with excursionStopped := false }) (.stands rfl rfl) hu) _ s hs

/-- R110: a train that trips goes to 0 kW. -/
theorem countTrip : Kept P (countTrip x) := fun s hs => by
  refine hP.basisChange _ (hP.raise _ _ (hP.putTrainCovered (.downs ?_ (.inl rfl)) (hP.releaseStore x s hs)))
  dsimp only
  split <;> rfl

theorem tripAssert : Kept P (tripAssert x) := by
  intro s hs
  have hline : P (s.setTrain x { s.train x with tripLine := true }) := hP.moves (.stands rfl rfl) hs
  unfold Machine.tripAssert; dsimp only
  split
  · exact hs
  · split
    · exact hline
    · exact hline
    all_goals exact hP.countTrip x _ hline

theorem countTimer : Kept P (countTimer x) := by
  intro s hs
  unfold Machine.countTimer; dsimp only
  split
  · exact hs
  · split
    · exact hP.expire x s hs
    · exact hP.moves (.stands rfl rfl) hs

theorem trainSecond : Kept P (trainSecond x) := fun s hs => hP.putTrain (.stands rfl rfl) (hP.countTimer x s hs)

end

/-- The heater cycles are no train's. -/
theorem withCycles (a b : Cycle) : Kept P fun s => s.withTrains { s.trains with timerA := a, timerB := b } := fun _ =>
  hP.reads ⟨fun _ => rfl, fun _ => rfl, rfl, rfl, rfl⟩

theorem trainsSecond : Kept P trainsSecond := fun s hs =>
  hP.withCycles _ _ _ (eachTrain hP.trainSecond TrainIx.all s hs)

theorem trainsDay (b : Turn) : Kept P (trainsDay b) := fun _ => kept_ite (f := trainsNewDay) fun u => by
  have htrain : ∀ x, (trainsNewDay u).train x = (u.train x).newDay := fun x => PerTrain.get_map u.trains.train Train.newDay x
  exact hP.reads ⟨fun x => by rw [htrain]; rfl, fun x => by rw [htrain]; rfl, rfl, rfl, rfl⟩

/-- R168: entry into SAFE stops the trains that are up. -/
theorem enteredSafe : Kept P enteredSafe := fun s hs =>
  hP.touches (eachTrain hP.safeStop TrainIx.all s hs)
    ((releaseBoth_touches _ .safe).trans ((touches_withPort _ _).mono (by decide)))

/-! ### The dispatcher's second (R135) -/

section
variable (x : TrainIx)

theorem stopOrUnload : Kept P (stopOrUnload x) := by
  intro s hs
  have hstop := hP.requestStop x s hs
  have hunload := hP.requestUnload x _ hstop
  unfold Machine.stopOrUnload; dsimp only
  split
  · exact hstop
  · split
    · exact hP.touches hunload (setHold_touches _ x true)
    · exact hunload

theorem releaseTrain : Kept P (releaseTrain x) := by
  intro s hs
  unfold Machine.releaseTrain; dsimp only
  split
  · split
    · exact hs
    · exact hP.stopOrUnload x s hs
  · split
    · exact hs
    · exact hP.requestStop x s hs
  all_goals exact hs

theorem startOrLoad : Kept P (startOrLoad x) := by
  intro s hs
  unfold Machine.startOrLoad; split
  · exact kept_ite (hP.requestStart x) hs
  · exact kept_ite (hP.requestLoad x) hs
  all_goals exact hs

theorem rampTrain : Kept P (rampTrain x) := fun _ => kept_ite (hP.requestSetpoint x _)

end

theorem lookAhead : Kept P lookAhead := by
  intro s hs
  have hahead : P ((rowsAhead s).foldl aheadOfRow (s, [])).1 :=
    List.foldlRecOn (motive := fun w : State × List TrainIx => P w.1) _ _ hs fun w hw r _ =>
      eachTrain (fun x _ hu => kept_ite (hP.requestStart x) hu) _ w.1 hw
  unfold Machine.lookAhead; split
  · exact hP.touches hahead (touches_withDispatch _ _)
  · exact hP.touches hs (touches_withDispatch _ _)

theorem dispatchTrains : Kept P dispatchTrains := fun s hs => by
  have hformed := hP.touches hs (formCommit_touches s)
  have hreleased : P (releaseUnwanted (formCommit s)) :=
    hP.touches (eachTrain hP.releaseTrain TrainIx.all _ hformed) (clearHolds_touches _)
  have hahead := hP.lookAhead _ (eachTrain hP.startOrLoad (releaseUnwanted (formCommit s)).dispatch.commit _ hreleased)
  exact eachTrain hP.rampTrain TrainIx.all _
    (hP.touches hahead (computeShares_touches _ (runningMembers (formCommit s))))

theorem dispatchSecond : Kept P dispatchSecond := fun s hs => by
  rw [dispatchSecond_eq]
  exact hP.touches (hP.dispatchTrains _ (hP.touches hs (formTarget_touches s))) (meterSecond_touches _)

/-! ### Requests (R4, R24, R112 to R114, R121 to R123) -/

theorem setExcursion (d : Side) (e : Excursion) : Kept P (setExcursion d e) := by
  intro s hs
  have haccount : ∀ a, P (s.withAccount a) := fun a => hP.touches hs (touches_withAccount s a)
  unfold Machine.setExcursion; dsimp only
  split
  · exact haccount _
  · exact hP.excursionChanged d e _ (haccount _)

theorem ownPostReading (r : ReadingArgs) : Kept P (ownPostReading r) := fun s hs => by
  have hjudged : P (readingJudged r s) := hP.setExcursion .discharge _ _
    (hP.setExcursion .charge _ _ (hP.touches hs (readingTaken_touches r s)))
  exact hP.touches hjudged (ownPostReading_frame r s)

theorem ownExcursionClear (b : Byte) : Kept P (ownExcursionClear b) := by
  intro s hs
  have hclear : ∀ d, Kept P (clearSide d) := fun d _ => kept_ite (hP.setExcursion d .clear)
  unfold Machine.ownExcursionClear; split
  · exact hP.answer _ _ _ s hs
  · split
    · exact hP.answer _ _ _ s hs
    · split
      · exact hP.answer _ _ _ s hs
      · exact hP.answer _ _ _ _ (kept_ite (hclear .discharge) (kept_ite (hclear .charge) hs))

/-- A train that is not RUNNING taken down in an event with a basis change of its own, and answered. -/
theorem answerCovered {s : State} (hs : P s) {x : TrainIx} {v : Train} (hx : (s.train x).state ≠ .running)
    (hdown : v.state.stoppable = false) (hset : v.setpoint = (s.train x).setpoint) (c : Byte) (r : Result) (p : List Byte) :
    P (Machine.answer c r p (Machine.basisChange (Machine.raise .trainEvent (Machine.putTrainCovered x v s)))) :=
  hP.answer _ _ _ _ (hP.basisChange _ (hP.raise _ _ (hP.putTrainCovered (.downs hdown (.inr ⟨hx, hset⟩)) hs)))

theorem ownTrainReset (index : Byte) : Kept P (ownTrainReset index) := by
  intro s hs
  unfold Machine.ownTrainReset; split
  · exact hP.answer _ _ _ s hs
  · split
    · exact hP.answer _ _ _ s hs
    next hstate =>
      rw [not_or, not_not] at hstate
      exact hP.answerCovered hs (by rw [hstate.1]; decide) (by rfl) (by rfl) _ _ _

theorem ownTrainUnlock (index : Byte) : Kept P (ownTrainUnlock index) := by
  intro s hs
  unfold Machine.ownTrainUnlock; split
  · exact hP.answer _ _ _ s hs
  · split
    · exact hP.answer _ _ _ s hs
    next hstate =>
      rw [not_or, not_not] at hstate
      exact hP.answerCovered hs (by rw [hstate.1]; decide) (by rfl) (by rfl) _ _ _

theorem ownTrainService (index direction : Byte) : Kept P (ownTrainService index direction) := by
  intro s hs
  unfold Machine.ownTrainService; split
  · split
    next hstate =>
      refine hP.answer _ _ _ _ (hP.basisChange _ (hP.putTrainCovered (.downs rfl (.inr ⟨fun hr => ?_, rfl⟩)) hs))
      rw [hr] at hstate
      cases hstate
    · exact hP.answer _ _ _ s hs
  · split
    · exact hP.answer _ _ _ s hs
    next hstate =>
      rw [not_or, not_not] at hstate
      exact hP.answerCovered hs (by rw [hstate.1]; decide) (by rfl) (by rfl) _ _ _
  · exact hP.answer _ _ _ s hs

theorem ownTrainPriority (side : Byte) (order : List Byte) : Kept P (ownTrainPriority side order) := by
  intro s hs
  unfold Machine.ownTrainPriority; split
  · exact hP.answer _ _ _ s hs
  next d ts _ =>
    exact hP.answer _ _ _ _ (eachTrain (f := fun x u => u.setTrain x { u.train x with rank := ts.idxOf x + 1 })
      (fun x u hu => hP.moves (v := { u.train x with rank := ts.idxOf x + 1 }) (.stands rfl rfl) hu) ts s hs)

theorem ownHeaterAssign (index heater : Byte) : Kept P (ownHeaterAssign index heater) := by
  intro s hs
  have hassign : ∀ x v, P (assignHeater x v s) := fun x v => by
    unfold assignHeater; split
    · exact hs
    · exact hP.putTrain (.stands rfl rfl) hs
  unfold Machine.ownHeaterAssign; split
  · split
    · exact hP.answer _ _ _ _ (hassign _ _)
    · exact hP.answer _ _ _ s hs
  · exact hP.answer _ _ _ s hs

theorem setCycle (k : CycleTimer) (c : Cycle) : Kept P fun s => s.setCycle k c := fun s hs => by
  cases k <;> exact hP.withCycles _ _ s hs

theorem ownHeaterTimer (timer : Byte) (period onTime : Half) : Kept P (ownHeaterTimer timer period onTime) := by
  intro s hs
  unfold Machine.ownHeaterTimer; split
  · exact hP.answer _ _ _ s hs
  · split
    · exact hP.answer _ _ _ _ (hP.setCycle _ _ s hs)
    · exact hP.answer _ _ _ s hs

end

end Sequenced

end Sys2Proof.Machine
end

section
/-! SUPPORT. O39 and O58: of a law that the sequencer's moves keep, and a supervision failure too (R178), the responses and the commands
that keep it: all but those that write the limits, lock them or bring the part to NORMAL, and power-on reset. -/

namespace Sys2Proof

set_option Elab.async false

/-- The commands that write the limits (R172), lock them (R174) or bring the part to NORMAL (R170), and power-on reset. -/
def Instr.reconfigures : Instr → Bool
  | .powerOnReset _ | .paramWrite _ _ _ | .lockLimits _ | .resume _ | .recover _ => true
  | _ => false

namespace Machine

/-- A law that the sequencer's moves keep, and a change of mode at a supervision failure too (R178). -/
structure Ruled (P : State → Prop) : Prop extends Sequenced P where
  fails : ∀ ⦃s m⦄, s.mode = .normal ∨ s.mode = .hold → m = .hold ∨ m = .safe → P s → P (changeMode m s)

/-- R178: outside NORMAL and HOLD a failure is only counted. -/
theorem supervisionFailure_counted {s : State} (h : ¬ (s.mode = .normal ∨ s.mode = .hold)) :
    supervisionFailure s = countFailure s := by
  unfold supervisionFailure; dsimp only
  split
  next hm _ => exact absurd (.inl hm) h
  next hm _ => exact absurd (.inl hm) h
  next hm => exact absurd (.inr hm) h
  all_goals rfl

namespace Ruled

section
variable {P : State → Prop} (hP : Ruled P)
include hP

/-! ### Modes and supervision (R169, R176 to R179) -/

theorem supervisionFailure : Kept P supervisionFailure := by
  intro s hs
  have hcounted : P (countFailure s) := hP.touches hs (touches_withSupervision s _)
  by_cases hm : s.mode = .normal ∨ s.mode = .hold
  · rw [supervisionFailure_eq hm]
    exact hP.fails hm (escalated_cases _ _) hcounted
  · rw [supervisionFailure_counted hm]
    exact hcounted

theorem countSupervision : Kept P countSupervision := fun s hs =>
  kept_ite hP.supervisionFailure (hP.touches hs (touches_withSupervision s _))

theorem supervisionSecond : Kept P supervisionSecond := fun _ => kept_ite hP.countSupervision

theorem ownKeepalive : Kept P ownKeepalive := by
  intro s hs
  refine hP.answer _ _ _ _ ?_
  split
  · exact hP.supervisionFailure s hs
  · exact hP.touches hs (reloadTimer_touches s)

theorem ownForceExpiry : Kept P ownForceExpiry := by
  intro s hs
  unfold Machine.ownForceExpiry; split
  · exact hP.answer _ _ _ s hs
  · split
    · exact hP.answer _ _ _ s hs
    · exact hP.answer _ _ _ _ (hP.supervisionFailure s hs)

theorem ownEnterHold : Kept P ownEnterHold := by
  intro s hs
  unfold Machine.ownEnterHold; split
  next hm => exact hP.answer _ _ _ _ (hP.fails (.inl hm) (.inl rfl) hs)
  all_goals exact hP.answer _ _ _ s hs

theorem ownEnterSafe : Kept P ownEnterSafe := by
  intro s hs
  unfold Machine.ownEnterSafe; split
  next hm => exact hP.answer _ _ _ _ (hP.fails (.inl hm) (.inr rfl) hs)
  next hm => exact hP.answer _ _ _ _ (hP.fails (.inr hm) (.inr rfl) hs)
  all_goals exact hP.answer _ _ _ s hs

/-! ### Responses and commands -/

/-- R69, R90: each response keeps the law. -/
theorem respondDue (d : Due) : Kept P (respondDue d) := by
  have hframe : (∀ f ∈ [Field.trains, .mode, .limits, .locked], f ∉ partFields d.part) → Kept P (Machine.respondDue d) :=
    fun h s => hP.ignores (h _ (by simp)) (h _ (by simp)) (h _ (by simp)) (h _ (by simp)) (respondDue_frame d s)
  cases d with
  | second p =>
    cases p with
    | trainsSecond => exact hP.trainsSecond
    | dispatchSecond => exact hP.dispatchSecond
    | supervisionSecond => exact hP.supervisionSecond
    | trainsDay => exact fun _ hs => hs
    | _ => exact hframe (by simp [Due.part, partFields])
  | boundary b p =>
    cases p with
    | trainsDay => exact hP.trainsDay b
    | trainsSecond | dispatchSecond | supervisionSecond => exact fun _ hs => hs
    | _ => exact hframe (by simp [Due.part, partFields])

omit hP in
/-- The last count of a state's timer. -/
theorem expiry {f : TrainIx → State → State} {x : TrainIx} {st : TrainState}
    (hf : ∀ s, P s → (s.train x).state = st → P (f x s)) :
    Kept P fun s => if (s.train x).state = st ∧ (s.train x).stateTimer = 1 then f x s else s := by
  intro s hs
  dsimp only
  split
  next hx => exact hf s hs hx.1
  · exact hs

theorem exec_kept {c : Instr} (hc : c.reconfigures = false) {s t : State} (h : exec c s = .next t) (hs : P s) : P t := by
  have hport : Ignores P readerFields := hP.ignores (by decide) (by decide) (by decide) (by decide)
  have hevents : Ignores P [.clock, .due, .port] := hP.ignores (by decide) (by decide) (by decide) (by decide)
  have hevent : ∀ f, Kept P f → exec c s = .next (unlessHeld f s) → P t := fun f hf hc => by
    obtain rfl := Host.Outcome.next.inj (h.symm.trans hc)
    exact unlessHeld_kept hf s hs
  have hrequest : ∀ r hd f, Kept P f → exec c s = .next (takeRequest r hd f s) → P t := fun r hd f hf hc => by
    obtain rfl := Host.Outcome.next.inj (h.symm.trans hc)
    exact takeRequest_kept hport hf r hd s hs
  cases c with
  | powerOnReset _ | paramWrite _ _ _ | lockLimits _ | resume _ | recover _ => exact absurd hc nofun
  | secondEvent how => exact exec_events_kept hevents hP.respondDue (.inl rfl) h hs
  | boundary how => exact exec_events_kept hevents hP.respondDue (.inr (.inl rfl)) h hs
  | syncPulse how => exact exec_events_kept hevents hP.respondDue (.inr (.inr rfl)) h hs
  | startingExpiry x => exact hevent _ (expiry fun _ hu hx => hP.enterReady x hu (by rw [hx]; rfl)) rfl
  | readyMaxExpiry x => exact hevent _ (expiry fun u hu _ => hP.enterStopping x u hu) rfl
  | stopTimeExpiry x => exact hevent _ (expiry fun _ hu hx => hP.enterCooldown x hu (by rw [hx]; decide)) rfl
  | minDownExpiry x => exact hevent _ (expiry fun _ hu hx => hP.enterIdle x hu (by rw [hx]; decide)) rfl
  | hotWindowExpiry x =>
    refine hevent _ (fun u hu => ?_) rfl
    split
    · exact hP.putTrain (.stands rfl rfl) hu
    · exact hu
  | heaterCycleWrap k => exact hevent _ (fun _ => kept_ite (hP.setCycle k _)) rfl
  | tripAssertion x => exact hevent _ (hP.tripAssert x) rfl
  | tripRelease x => exact hevent _ (fun u => hP.moves (v := { u.train x with tripLine := false }) (.stands rfl rfl)) rfl
  | supervisionExpiry => exact hevent _ (fun _ => kept_ite hP.countSupervision) rfl
  | keepalive hd => exact hrequest _ _ _ hP.ownKeepalive rfl
  | forceExpiry hd => exact hrequest _ _ _ hP.ownForceExpiry rfl
  | enterHold hd => exact hrequest _ _ _ hP.ownEnterHold rfl
  | enterSafe hd => exact hrequest _ _ _ hP.ownEnterSafe rfl
  | postReading hd r => exact hrequest _ _ _ (hP.ownPostReading r) rfl
  | excursionClear hd b => exact hrequest _ _ _ (hP.ownExcursionClear b) rfl
  | trainService hd i d => exact hrequest _ _ _ (hP.ownTrainService i d) rfl
  | trainReset hd i => exact hrequest _ _ _ (hP.ownTrainReset i) rfl
  | trainUnlock hd i => exact hrequest _ _ _ (hP.ownTrainUnlock i) rfl
  | trainPriority hd d l => exact hrequest _ _ _ (hP.ownTrainPriority d l) rfl
  | heaterAssign hd i v => exact hrequest _ _ _ (hP.ownHeaterAssign i v) rfl
  | heaterTimer hd k p o => exact hrequest _ _ _ (hP.ownHeaterTimer k p o) rfl
  | clockSet hd n d c =>
    exact hrequest _ _ _ (ownClockSet_kept hevents hP.respondDue
      (fun n d c u hu => hP.touches hu (setClock_frame u n d c)) n d c) rfl
  | _ =>
    exact exec_kept_of_frame (hP.ignores (by simp [Instr.fields]) (by simp [Instr.fields]) (by simp [Instr.fields])
      (by simp [Instr.fields])) h hs

/-- A response that is due keeps the law. -/
theorem respondNext : Kept P respondNext :=
  respondNext_kept (hP.ignores (by decide) (by decide) (by decide) (by decide)) hP.respondDue

/-- The step runs a command, or makes a response that is due. -/
theorem step_kept (hc : ∀ c s t, c.reconfigures = true → exec c s = .next t → P s → P t) {s t : State}
    (h : step s = .next t) (hs : P s) : P t := by
  refine Machine.step_kept (hP.ignores (by decide) (by decide) (by decide) (by decide)) hP.respondNext
    (fun c u v hexec hu => ?_) h hs
  cases hr : c.reconfigures
  · exact hP.exec_kept hr hexec hu
  · exact hc c u v hr hexec hu

end

end Ruled

end Machine
end Sys2Proof
end

section
/-! SUPPORT. O58: the law of the plant (R106, R171, R174) through one move of a train, a change of mode, and the commands that write and
lock the limits. -/

namespace Sys2Proof.Machine

set_option Elab.async false

/-! ### The two sides (R106) -/

theorem sideAtZero_iff (s : State) (d : Side) :
    sideAtZero s d = true ↔ ∀ y : TrainIx, y.side = d → (s.train y).setpoint = 0 := by
  simp [sideAtZero]

theorem oneSideAtPower_iff (s : State) : OneSideAtPower s ↔ ∃ d, sideAtZero s d = true := by
  refine ⟨fun h => h.elim (fun h => ⟨_, h⟩) fun h => ⟨_, h⟩, fun ⟨d, h⟩ => ?_⟩
  cases d
  · exact .inl h
  · exact .inr h

theorem Side.ne_other (d : Side) : d ≠ d.other := by cases d <;> decide

/-! ### The law through one move -/

/-- R106: the setpoint a state allows. -/
def SetpointFits (p : TrainParams) (v : Train) : Prop :=
  if v.state = .running then p.tpMin ≤ v.setpoint ∧ v.setpoint ≤ p.tpMax else v.setpoint = 0

theorem SetpointFits.of_not_running {p : TrainParams} {v : Train} (h : v.state ≠ .running) (h0 : v.setpoint = 0) :
    SetpointFits p v := by rwa [SetpointFits, if_neg h]

theorem SetpointFits.atRest {p : TrainParams} {v : Train} (h : SetpointFits p v) (hv : v.state ≠ .running) :
    v.setpoint = 0 := by rwa [SetpointFits, if_neg hv] at h

theorem SetpointFits.congr {p : TrainParams} {u v : Train} (hstate : v.state = u.state) (hset : v.setpoint = u.setpoint)
    (h : SetpointFits p u) : SetpointFits p v := by rwa [SetpointFits, hstate, hset]

theorem TrainState.ne_running_of_down {st : TrainState} (h : st.stoppable = false) : st ≠ .running := by
  rintro rfl
  cases h

theorem samePlant_plantLaw {s t : State} (h : SamePlant s t) (hs : PlantLaw s) : PlantLaw t := by
  obtain ⟨hset, hone, hlock, hcomm, hmin⟩ := hs
  have hparams : ∀ x, paramsOf t x = paramsOf s x := fun x => by rw [paramsOf, h.limits]; rfl
  obtain ⟨d, hd⟩ := (oneSideAtPower_iff s).mp hone
  have hlock' : t.locked = true ↔ t.mode ≠ .commissioning := by rw [h.locked, h.mode]; exact hlock
  refine ⟨fun x => ?_, (oneSideAtPower_iff t).mpr ⟨d, ?_⟩, hlock', fun hm x => ?_, fun hk x => ?_⟩
  · rw [hparams]
    exact SetpointFits.congr (h.state x) (h.setpoint x) (hset x)
  · rw [sideAtZero_iff] at hd ⊢
    exact fun y hy => (h.setpoint y).trans (hd y hy)
  · rw [h.state]
    exact hcomm (h.mode.symm.trans hm) x
  · rw [hparams]
    exact hmin (h.locked.symm.trans hk) x

section
variable {s : State} {x : TrainIx} {v : Train}

/-- A train that is up is so with the limits locked, so its TP_MIN is below its TP_MAX. -/
theorem PlantLaw.limits_of_up (hs : PlantLaw s) (hup : (s.train x).state.stoppable = true) :
    s.mode ≠ .commissioning ∧ (paramsOf s x).tpMin < (paramsOf s x).tpMax := by
  obtain ⟨-, -, hlock, hcomm, hmin⟩ := hs
  have hmode : s.mode ≠ .commissioning := fun hm => absurd (hup.symm.trans (hcomm hm x)) nofun
  exact ⟨hmode, hmin (hlock.mpr hmode) x⟩

theorem Move.setpointFits (h : Move s x v) (hs : PlantLaw s) : SetpointFits (paramsOf s x) v := by
  have hfits : SetpointFits (paramsOf s x) (s.train x) := hs.1 x
  cases h with
  | stands hstate hset => exact hfits.congr hstate hset
  | downs hdown hset =>
    refine .of_not_running (TrainState.ne_running_of_down hdown) ?_
    rcases hset with h0 | ⟨hrest, hset⟩
    · exact h0
    · exact hset.trans (hfits.atRest hrest)
  | starts hstate hidle hset hmode =>
    exact .of_not_running (by rw [hstate]; decide) (hset.trans (hfits.atRest (by rw [hidle]; decide)))
  | readies hstate hup hset => exact .of_not_running (by rw [hstate]; decide) hset
  | powers hstate hup hrange hside =>
    rw [SetpointFits, if_pos hstate]
    exact hrange (hs.limits_of_up hup).2.le

/-- R105, R106: a setpoint that is written is 0 kW, or as before, or the other side is at 0 kW. -/
theorem Move.setpoint_or_side (h : Move s x v) (hs : PlantLaw s) :
    v.setpoint = 0 ∨ v.setpoint = (s.train x).setpoint ∨ sideAtZero s x.side.other = true := by
  have hfits := h.setpointFits hs
  cases h with
  | stands hstate hset => exact .inr (.inl hset)
  | downs hdown hset => exact .inl (hfits.atRest (TrainState.ne_running_of_down hdown))
  | starts hstate hidle hset hmode => exact .inr (.inl hset)
  | readies hstate hup hset => exact .inl hset
  | powers hstate hup hrange hside => exact hside.imp_right .inr

/-- No train comes up in COMMISSIONING. -/
theorem Move.down_in_commissioning (h : Move s x v) (hs : PlantLaw s) (hm : s.mode = .commissioning) :
    v.state.stoppable = false := by
  have hold : (s.train x).state.stoppable = false := by
    obtain ⟨-, -, -, hcomm, -⟩ := hs
    exact hcomm hm x
  cases h with
  | stands hstate hset => rw [hstate]; exact hold
  | downs hdown hset => exact hdown
  | starts hstate hidle hset hmode => exact absurd (hm.symm.trans hmode) nofun
  | readies hstate hup hset => exact absurd (hup.symm.trans hold) nofun
  | powers hstate hup hrange hside => exact absurd (hup.symm.trans hold) nofun

theorem Move.oneSideAtPower (h : Move s x v) (hs : PlantLaw s) : OneSideAtPower (s.setTrain x v) := by
  have hzero : ∀ d, sideAtZero s d = true → (x.side = d → v.setpoint = 0 ∨ v.setpoint = (s.train x).setpoint) →
      OneSideAtPower (s.setTrain x v) := fun d hd hx => by
    rw [sideAtZero_iff] at hd
    refine (oneSideAtPower_iff _).mpr ⟨d, (sideAtZero_iff _ d).mpr fun y hy => ?_⟩
    rw [setTrain_train]
    split
    next hyx =>
      subst hyx
      exact (hx hy).elim (fun h0 => h0) fun hset => hset.trans (hd y hy)
    · exact hd y hy
  obtain ⟨d, hd⟩ := (oneSideAtPower_iff s).mp hs.2.1
  rcases h.setpoint_or_side hs with h0 | hset | hside
  · exact hzero d hd fun _ => .inl h0
  · exact hzero d hd fun _ => .inr hset
  · exact hzero _ hside fun hx => absurd hx (Side.ne_other x.side)

theorem Move.plantLaw (h : Move s x v) (hs : PlantLaw s) : PlantLaw (s.setTrain x v) := by
  have ⟨hset, _, hlock, hcomm, hmin⟩ := hs
  refine ⟨fun y => ?_, h.oneSideAtPower hs, hlock, fun hm y => ?_, hmin⟩
  · rw [setTrain_train]
    split
    next hyx => subst hyx; exact h.setpointFits hs
    · exact hset y
  · rw [setTrain_train]
    split
    · exact h.down_in_commissioning hs hm
    · exact hcomm hm y

end

theorem plantLaw_sequenced : Sequenced PlantLaw where
  reads _ _ := samePlant_plantLaw
  moves _ _ _ h hs := h.plantLaw hs

/-! ### Changes of mode (R168, R174) -/

/-- With the limits locked outside COMMISSIONING the law is of the setpoints, the sides and the limits. -/
theorem PlantLaw.of_locked {s : State} (hset : SetpointLaw s) (hone : OneSideAtPower s) (hk : s.locked = true)
    (hm : s.mode ≠ .commissioning) (hmin : ∀ x, (paramsOf s x).tpMin < (paramsOf s x).tpMax) : PlantLaw s :=
  ⟨hset, hone, iff_of_true hk hm, fun hc => absurd hc hm, fun _ => hmin⟩

/-- Once the limits are locked the mode may be any but COMMISSIONING. -/
theorem PlantLaw.withMode {s : State} (hs : PlantLaw s) (hold : s.mode ≠ .commissioning) {m : Mode}
    (hm : m ≠ .commissioning) : PlantLaw (s.withMode m) := by
  obtain ⟨hset, hone, hlock, -, hmin⟩ := hs
  exact .of_locked hset hone (hlock.mpr hold) hm (hmin (hlock.mpr hold))

/-- A change of mode does no more to the trains than stop them. -/
theorem changeMode_plantLaw {s : State} {m : Mode} (hs : PlantLaw (s.withMode m)) : PlantLaw (changeMode m s) := by
  have hraised := plantLaw_sequenced.raise .mode _ hs
  unfold changeMode; dsimp only
  split
  · exact plantLaw_sequenced.enteredSafe _ hraised
  · exact plantLaw_sequenced.touches hraised (reloadTimer_touches _)
  · exact plantLaw_sequenced.touches hraised (reloadTimer_touches _)
  · exact hraised

theorem plantLaw_ruled : Ruled PlantLaw where
  toSequenced := plantLaw_sequenced
  fails s m hold hm hs := by
    refine changeMode_plantLaw (hs.withMode ?_ ?_)
    · rcases hold with hold | hold <;> rw [hold] <;> decide
    · rcases hm with rfl | rfl <;> decide

/-- R170, R174: a change to NORMAL that clears the failures, and is answered. -/
theorem answerNormal_plantLaw {s : State} (hs : PlantLaw (s.withMode .normal)) (c : Byte) (r : Result)
    (p : List Byte) : PlantLaw (answer c r p (clearFailures (changeMode .normal s))) :=
  plantLaw_sequenced.answer _ _ _ _ (plantLaw_sequenced.touches (changeMode_plantLaw hs) (clearFailures_touches _))

theorem ownResume_plantLaw : Kept PlantLaw ownResume := by
  intro s hs
  unfold ownResume; split
  next hm => exact answerNormal_plantLaw (hs.withMode (by rw [hm]; decide) (by decide)) _ _ _
  · exact plantLaw_sequenced.answer _ _ _ s hs

theorem ownRecover_plantLaw : Kept PlantLaw ownRecover := by
  intro s hs
  unfold ownRecover; split
  · exact plantLaw_sequenced.answer _ _ _ s hs
  next hm =>
    split
    · exact plantLaw_sequenced.answer _ _ _ s hs
    · split
      · exact plantLaw_sequenced.answer _ _ _ s hs
      · exact answerNormal_plantLaw (hs.withMode (by rw [not_not.mp hm]; decide) (by decide)) _ _ _

/-! ### The limits (R172, R174) -/

/-- R174: where every cross-check passes, TP_MIN is below TP_MAX of each train. -/
theorem tpMin_lt_of_checked {l : Limits} (h : failedCheck l = none) (x : TrainIx) :
    (l.train.get x).tpMin < (l.train.get x).tpMax := by
  have hnone : crossChecks.find? (fun c => !decide (l.get c.1 < l.get c.2)) = none := Option.map_eq_none_iff.mp h
  have hmem : (Param.train x .tpMin, Param.train x .tpMax) ∈ crossChecks :=
    List.mem_append_right _ (List.mem_map.mpr ⟨x, TrainIx.mem_all x, rfl⟩)
  have hlt : l.get (.train x .tpMin) < l.get (.train x .tpMax) := by simpa using List.find?_eq_none.mp hnone _ hmem
  exact hlt

theorem ownLockLimits_plantLaw : Kept PlantLaw ownLockLimits := by
  intro s hs
  have hr : ∀ c r p, PlantLaw (answer c r p s) := fun c r p => plantLaw_sequenced.answer c r p s hs
  unfold ownLockLimits; split
  · exact hr _ _ _
  · split
    · exact hr _ _ _
    · split
      · exact hr _ _ _
      · split
        · exact hr _ _ _
        next hchecked =>
          exact answerNormal_plantLaw (s := s.withLocked true)
            (.of_locked hs.1 hs.2.1 rfl nofun (tpMin_lt_of_checked hchecked)) _ _ _

/-- R172: the limits are written in COMMISSIONING only, while every train is at 0 kW. -/
theorem ownParamWrite_plantLaw (index : Byte) (value : Word) : Kept PlantLaw (ownParamWrite index value) := by
  intro s hs
  have hframe := ownParamWrite_touches s index value
  cases hk : s.locked with
  | true => exact plantLaw_sequenced.touches hs (ownParamWrite_locked s hk index value)
  | false =>
    obtain ⟨hset, hone, hlock, hcomm, -⟩ := hs
    have hm : s.mode = .commissioning := by
      by_contra hm
      exact absurd (hk.symm.trans (hlock.mpr hm)) nofun
    have htrain : ∀ x, (ownParamWrite index value s).train x = s.train x := fun x =>
      congrArg (fun v : Trains => v.train.get x) (hframe.get .trains)
    have hmode : (ownParamWrite index value s).mode = s.mode := hframe.get .mode
    have hlocked : (ownParamWrite index value s).locked = s.locked := hframe.get .locked
    have hrest : ∀ x, (s.train x).state ≠ .running := fun x => TrainState.ne_running_of_down (hcomm hm x)
    have hzero : ∀ x, (s.train x).setpoint = 0 := fun x => SetpointFits.atRest (hset x) (hrest x)
    have hlock' : (ownParamWrite index value s).locked = true ↔ (ownParamWrite index value s).mode ≠ .commissioning := by
      rw [hlocked, hmode]; exact hlock
    refine ⟨fun x => ?_, (oneSideAtPower_iff _).mpr ⟨.charge, ?_⟩, hlock', fun _ x => ?_, fun ht => ?_⟩
    · rw [htrain]
      exact SetpointFits.of_not_running (hrest x) (hzero x)
    · rw [sideAtZero_iff]
      exact fun y _ => by rw [htrain]; exact hzero y
    · rw [htrain]; exact hcomm hm x
    · exact absurd (hk.symm.trans (hlocked.symm.trans ht)) nofun

/-- The commands that reconfigure the part. -/
theorem exec_reconfigures_plantLaw (c : Instr) (s t : State) (hc : c.reconfigures = true) (h : exec c s = .next t)
    (hs : PlantLaw s) : PlantLaw t := by
  have hport : Ignores PlantLaw readerFields := plantLaw_sequenced.ignores (by decide) (by decide) (by decide) (by decide)
  cases c with
  | powerOnReset lines =>
    obtain rfl := Host.Outcome.next.inj h
    exact samePlant_plantLaw (.of_trains rfl rfl rfl rfl) (afterReset_plantLaw lines.trip)
  | paramWrite hd i v =>
    obtain rfl := Host.Outcome.next.inj h
    exact takeRequest_kept hport (ownParamWrite_plantLaw i v) _ hd s hs
  | lockLimits hd =>
    obtain rfl := Host.Outcome.next.inj h
    exact takeRequest_kept hport ownLockLimits_plantLaw _ hd s hs
  | resume hd =>
    obtain rfl := Host.Outcome.next.inj h
    exact takeRequest_kept hport ownResume_plantLaw _ hd s hs
  | recover hd =>
    obtain rfl := Host.Outcome.next.inj h
    exact takeRequest_kept hport ownRecover_plantLaw _ hd s hs
  | _ => exact absurd hc nofun

end Sys2Proof.Machine
end

section
open Sys2Proof Sys2Proof.Machine

set_option Elab.async false

/-- Settles O58: each move of a train keeps the law, a change of mode leaves the limits locked, and the limits are written only while
every train is at 0 kW. -/
theorem stepKeepsPlantLaw : Obligations.StepKeepsPlantLaw := fun _ _ hs h =>
  plantLaw_ruled.step_kept exec_reconfigures_plantLaw h hs

end

section
/-! SUPPORT. O39: in SAFE no train is up, and outside NORMAL none starts (R102, R117). -/

namespace Sys2Proof.Machine

set_option Elab.async false

/-! ### No train up in SAFE (R117) -/

theorem Still.of_samePlant {s t : State} (h : SamePlant s t) (hs : Still s) : Still t :=
  ⟨h.mode.trans hs.1, fun x => by rw [h.state]; exact hs.2 x⟩

/-- Of the moves of a train none brings it up in SAFE, where it is down. -/
theorem Still.move {s : State} {x : TrainIx} {v : Train} (h : Move s x v) (hs : Still s) : Still (s.setTrain x v) := by
  have hold := hs.2 x
  refine setTrain_still ?_ hs
  cases h with
  | stands hstate hset => rw [hstate]; exact hold
  | downs hdown hset => exact hdown
  | starts hstate hidle hset hmode => exact absurd (hs.1.symm.trans hmode) nofun
  | readies hstate hup hset => exact absurd (hup.symm.trans hold) nofun
  | powers hstate hup hrange hside => exact absurd (hup.symm.trans hold) nofun

theorem still_ruled : Ruled Still where
  reads _ _ := Still.of_samePlant
  moves _ _ _ := Still.move
  fails s m hold _ hs := by
    rcases hold with hold | hold <;> exact absurd (hs.1.symm.trans hold) nofun

theorem safeLaw_iff (s : State) : SafeLaw s ↔ (s.mode = .safe → Still s) :=
  ⟨fun h hm => ⟨hm, h hm⟩, fun h hm => (h hm).2⟩

theorem safeLaw_ruled : Ruled SafeLaw where
  reads s t h hs hm := (Still.of_samePlant h ((safeLaw_iff s).mp hs (h.mode.symm.trans hm))).2
  moves s x v h hs hm := (((safeLaw_iff s).mp hs hm).move h).2
  fails s m _ hm _ := by
    rcases hm with rfl | rfl
    · intro hsafe
      cases hsafe
    · exact fun _ => (changeMode_safe_still s).2

/-! ### No start outside NORMAL (R102) -/

/-- Outside NORMAL, with no train STARTING that was not so in s₀. -/
def NoneStarts (s₀ s : State) : Prop :=
  s.mode ≠ .normal ∧ ∀ x, (s.train x).state = .starting → (s₀.train x).state = .starting

theorem NoneStarts.move {s₀ s : State} {x : TrainIx} {v : Train} (h : Move s x v) (hs : NoneStarts s₀ s) :
    NoneStarts s₀ (s.setTrain x v) := by
  obtain ⟨hmode, hold⟩ := hs
  refine ⟨hmode, fun y hy => ?_⟩
  rw [setTrain_train] at hy
  split at hy
  next hyx =>
    subst hyx
    cases h with
    | stands hstate hset => exact hold y (hstate.symm.trans hy)
    | downs hdown hset => rw [hy] at hdown; cases hdown
    | starts hstate hidle hset hnormal => exact absurd hnormal hmode
    | readies hstate hup hset => rw [hstate] at hy; cases hy
    | powers hstate hup hrange hside => rw [hstate] at hy; cases hy
  · exact hold y hy

theorem noneStarts_ruled (s₀ : State) : Ruled (NoneStarts s₀) where
  reads s t h hs := ⟨by rw [h.mode]; exact hs.1, fun x hx => hs.2 x ((h.state x).symm.trans hx)⟩
  moves _ _ _ := NoneStarts.move
  fails s m _ hm hs := by
    rcases hm with rfl | rfl
    · exact ⟨nofun, hs.2⟩
    · have ⟨hmode, hdown⟩ := changeMode_safe_still s
      refine ⟨by rw [hmode]; decide, fun x hx => ?_⟩
      have hx' := hdown x
      rw [hx] at hx'
      cases hx'

/-! ### The commands that reconfigure the part (R1, R170, R172, R174) -/

/-- The mode stands or is NORMAL, and no train moves. -/
def OnlyToNormal (s t : State) : Prop := t.trains = s.trains ∧ (t.mode = s.mode ∨ t.mode = .normal)

theorem OnlyToNormal.of_touches {fs : List Field} {s t : State} (h : Touches fs s t) (ht : .trains ∉ fs := by decide)
    (hm : .mode ∉ fs := by decide) : OnlyToNormal s t := ⟨h .trains ht, .inl (h .mode hm)⟩

/-- R170, R174: a change to NORMAL that clears the failures, and is answered. -/
theorem answerNormal_onlyToNormal {s u : State} (h : u.trains = s.trains) (c : Byte) (r : Result) (p : List Byte) :
    OnlyToNormal s (answer c r p (clearFailures (changeMode .normal u))) := ⟨h, .inr rfl⟩

theorem ownResume_onlyToNormal (s : State) : OnlyToNormal s (ownResume s) := by
  unfold ownResume; split
  · exact answerNormal_onlyToNormal rfl _ _ _
  · exact .of_touches (answer_touches s _ _ _)

theorem ownRecover_onlyToNormal (s : State) : OnlyToNormal s (ownRecover s) := by
  unfold ownRecover; split
  · exact .of_touches (answer_touches s _ _ _)
  · split
    · exact .of_touches (answer_touches s _ _ _)
    · split
      · exact .of_touches (answer_touches s _ _ _)
      · exact answerNormal_onlyToNormal rfl _ _ _

theorem ownLockLimits_onlyToNormal (s : State) : OnlyToNormal s (ownLockLimits s) := by
  have hr : ∀ c r p, OnlyToNormal s (answer c r p s) := fun c r p => .of_touches (answer_touches s c r p)
  unfold ownLockLimits; split
  · exact hr _ _ _
  · split
    · exact hr _ _ _
    · split
      · exact hr _ _ _
      · split
        · exact hr _ _ _
        · exact answerNormal_onlyToNormal (u := s.withLocked true) rfl _ _ _

theorem takeRequest_onlyToNormal {owner : State → State} (ho : ∀ u, OnlyToNormal u (owner u)) (r : Request) (h : Head)
    (s : State) : OnlyToNormal s (takeRequest r h owner s) := by
  have hport : Ignores (OnlyToNormal s) readerFields := fun u v hf hu => by
    rw [OnlyToNormal, show v.trains = u.trains from hf.get .trains, show v.mode = u.mode from hf.get .mode]
    exact hu
  refine takeRequest_kept hport (fun u hu => ?_) r h s ⟨rfl, .inl rfl⟩
  obtain ⟨htrains, hmode⟩ := ho u
  refine ⟨htrains.trans hu.1, hmode.elim (fun hm => ?_) .inr⟩
  rw [hm]
  exact hu.2

/-- These commands move no train and lead nowhere but to NORMAL, or put the state after power-on reset. -/
theorem exec_reconfigures_trains {c : Instr} (hc : c.reconfigures = true) {s t : State} (h : exec c s = .next t) :
    OnlyToNormal s t ∨ ∀ x, (t.train x).state.stoppable = false := by
  cases c with
  | powerOnReset lines =>
    obtain rfl := Host.Outcome.next.inj h
    exact .inr (afterReset_notStoppable lines.trip)
  | paramWrite hd i v =>
    obtain rfl := Host.Outcome.next.inj h
    exact .inl (takeRequest_onlyToNormal (fun u => .of_touches (ownParamWrite_touches u i v)) _ hd s)
  | lockLimits hd =>
    obtain rfl := Host.Outcome.next.inj h
    exact .inl (takeRequest_onlyToNormal ownLockLimits_onlyToNormal _ hd s)
  | resume hd =>
    obtain rfl := Host.Outcome.next.inj h
    exact .inl (takeRequest_onlyToNormal ownResume_onlyToNormal _ hd s)
  | recover hd =>
    obtain rfl := Host.Outcome.next.inj h
    exact .inl (takeRequest_onlyToNormal ownRecover_onlyToNormal _ hd s)
  | _ => exact absurd hc nofun

/-! ### Every command and every step -/

/-- From s to t no train starts but from NORMAL, and none comes up from or in SAFE. -/
structure SafeStep (s t : State) : Prop where
  noStart : s.mode ≠ .normal → ∀ x, (t.train x).state = .starting → (s.train x).state = .starting
  fromSafe : s.mode = .safe → SafeLaw s → ∀ x, (t.train x).state.stoppable = false
  law : SafeLaw s → SafeLaw t

/-- What keeps each ruled law makes a safe step. -/
theorem SafeStep.of_ruled {s t : State} (h : ∀ P, Ruled P → P s → P t) : SafeStep s t where
  noStart hm := (h _ (noneStarts_ruled s) ⟨hm, fun _ hx => hx⟩).2
  fromSafe hm hs := (h _ still_ruled ⟨hm, hs hm⟩).2
  law := h _ safeLaw_ruled

theorem SafeStep.of_onlyToNormal {s t : State} (h : OnlyToNormal s t) : SafeStep s t := by
  obtain ⟨htrains, hmode⟩ := h
  have htrain : ∀ x, t.train x = s.train x := fun x => congrArg (fun v : Trains => v.train.get x) htrains
  refine ⟨fun _ x hx => by rwa [htrain] at hx, fun hm hs x => by rw [htrain]; exact hs hm x, fun hs hm x => ?_⟩
  rcases hmode with hstands | hnormal
  · rw [htrain]; exact hs (hstands.symm.trans hm) x
  · exact absurd (hm.symm.trans hnormal) nofun

theorem SafeStep.of_down {s t : State} (h : ∀ x, (t.train x).state.stoppable = false) : SafeStep s t where
  noStart _ x hx := by
    have hdown := h x
    rw [hx] at hdown
    cases hdown
  fromSafe _ _ := h
  law _ _ := h

theorem exec_safeStep {c : Instr} {s t : State} (h : exec c s = .next t) : SafeStep s t := by
  cases hc : c.reconfigures with
  | false => exact .of_ruled fun _ hP => hP.exec_kept hc h
  | true =>
    rcases exec_reconfigures_trains hc h with hnormal | hdown
    · exact .of_onlyToNormal hnormal
    · exact .of_down hdown

theorem step_safeStep {s t : State} (h : step s = .next t) : SafeStep s t := by
  unfold step at h
  split at h
  · obtain rfl := Host.Outcome.next.inj h
    exact .of_ruled fun _ hP => unlessHeld_kept hP.respondNext s
  next rest _ =>
    have ⟨hstart, hsafe, hlaw⟩ := exec_safeStep h
    exact ⟨hstart, hsafe, hlaw⟩

end Sys2Proof.Machine
end

section
open Sys2Proof Sys2Proof.Machine

set_option Elab.async false

/-- Settles O39: no move of a train starts it outside NORMAL or brings it up in SAFE, and a command that brings the part to NORMAL moves
no train. -/
theorem trainsStartOnlyInNormal : Obligations.TrainsStartOnlyInNormal := by
  intro s t h
  have hstep : SafeStep s t := h.elim (fun ⟨_, hc⟩ => exec_safeStep hc) step_safeStep
  exact ⟨hstep.noStart, hstep.fromSafe, hstep.law⟩

end

section
/-! SUPPORT. O34: the last count of a train's timer, a train's second, and the sequencer's response to a second, train by train (R101, R103,
R104, R108, R109, R119). -/

namespace Sys2Proof.Machine

set_option Elab.async false

/-! ### The records (R101) -/

/-- R103, R108, R109: a train's record as the last count of its timer leaves it, its class apart. -/
def Train.expired (p : TrainParams) (x : TrainIx) (v : Train) : Train :=
  match v.state with
  | .starting => { v with state := .ready, stateTimer := p.readyMax, setpoint := 0 }
  | .ready =>
    { v with
      state := .stopping, stateTimer := p.stopTime, setpoint := 0, downSince := 0
      warm := decide (x.side = .discharge ∧ v.heater ≠ Heater.off) }
  | .stopping => { v with state := .cooldown, stateTimer := p.minDown }
  | .cooldown => { v with state := .idle, stateTimer := 0 }
  | .outOfService | .idle | .running | .tripped | .lockedOut => { v with stateTimer := 0 }

/-- R101 step 1: a train's record after one count of its timer, its class apart. -/
def Train.timed (p : TrainParams) (x : TrainIx) (v : Train) : Train :=
  if v.stateTimer = 0 then v
  else if decide (v.stateTimer = 1) = false then { v with stateTimer := v.stateTimer - 1 }
  else v.expired p x

/-- R101 steps 2 and 3: a train's record after one count of its run time and down time. -/
def Train.counted (v : Train) : Train :=
  { v with
    runTime := if v.state = .running then min 86400 (v.runTime + 1) else v.runTime
    downSince := if v.state.stoppable then v.downSince else min 86401 (v.downSince + 1) }

/-- The timer of the train makes its last count, and takes it off its store (R104, R108). -/
def Train.leavesStore (v : Train) : Bool := decide (v.stateTimer = 1) && decide (v.state = .ready)

/-- The last count of the train's timer raises TRAIN_EVENT (R103, R109). -/
abbrev Train.Announced (v : Train) : Prop := v.state = .starting ∨ v.state = .stopping ∨ v.state = .cooldown

/-- A train's timer leads it nowhere into STARTING. -/
theorem Train.expired_ne_starting (p : TrainParams) (x : TrainIx) (v : Train) : (v.expired p x).state ≠ .starting := by
  cases h : v.state <;> simp [Train.expired, h]

/-- R119: of a record that is not STARTING the class is judged from the other fields. -/
theorem classed_counted_classed (l : Limits) (x : TrainIx) {v : Train} (h : v.state ≠ .starting) :
    classed l x (classed l x v).counted = classed l x v.counted := by
  cases hs : v.state with
  | starting => exact absurd hs h
  | _ => simp [classed, Train.counted, judgedClass, hs]

section
variable {s : State} {x : TrainIx}

/-! ### A timer that expires (R101 step 1) -/

theorem expire_event (h : (s.train x).Announced) :
    expire x s = raise .trainEvent (putTrain x ((s.train x).expired (paramsOf s x) x) s) := by
  rcases h with h | h | h <;> simp only [expire, Train.expired, h] <;> rfl

theorem expire_ready (h : (s.train x).state = .ready) :
    expire x s = putTrain x ((s.train x).expired (paramsOf s x) x) (releaseStore x s) := by
  simp only [expire, Train.expired, h, enterStopping, stopFrom, Bool.decide_and]

theorem expire_untimed (hevent : ¬ (s.train x).Announced)
    (hready : (s.train x).state ≠ .ready) : expire x s = s.setTrain x ((s.train x).expired (paramsOf s x) x) := by
  cases h : (s.train x).state <;> simp [h] at hevent hready <;> simp only [expire, Train.expired, h]

theorem expire_train_other {y : TrainIx} (hy : y ≠ x) : (expire x s).train y = s.train y := by
  by_cases hevent : (s.train x).Announced
  · rw [expire_event hevent]; exact (putTrain_train s x y _).trans (if_neg hy)
  · by_cases hready : (s.train x).state = .ready
    · rw [expire_ready hready]; exact (putTrain_train _ x y _).trans (if_neg hy)
    · rw [expire_untimed hevent hready]; exact (setTrain_train s x y _).trans (if_neg hy)

/-- The record of a train that is STARTING, READY, STOPPING or in COOLDOWN is classed as its timer expires. -/
theorem expire_train_timed (h : (s.train x).state = .ready ∨
      (s.train x).Announced) :
    (expire x s).train x = classed s.limits x ((s.train x).expired (paramsOf s x) x) := by
  rcases h with hready | hevent
  · rw [expire_ready hready]; exact (putTrain_train _ x x _).trans (if_pos rfl)
  · rw [expire_event hevent]; exact (putTrain_train s x x _).trans (if_pos rfl)

theorem expire_store (i : StoreIx) : (expire x s).store i =
    { s.store i with
      trains := if (s.train x).state = .ready then (s.store i).trains.filter (· ≠ x) else (s.store i).trains } := by
  by_cases hready : (s.train x).state = .ready
  · rw [expire_ready hready, State.store, putTrain_heat, if_pos hready]
    exact releaseStore_store s x i
  · rw [if_neg hready]
    by_cases hevent : (s.train x).Announced
    · rw [expire_event hevent]
      exact congrArg (fun v : Heat => v.store.get i) (putTrain_heat s x _)
    · rw [expire_untimed hevent hready]; rfl

theorem expire_latched (h : (s.train x).Announced) :
    Latched .trainEvent (expire x s) := by
  rw [expire_event h]; exact latched_raise _ _

/-- What an expiry leaves besides the train's own record. -/
theorem expire_leaves (hevent : (s.train x).state ≠ .ready →
      (s.train x).Announced) :
    (∀ y, y ≠ x → (expire x s).train y = s.train y) ∧ Touches [.trains, .heat, .proj, .port] s (expire x s)
      ∧ (∀ i, ((expire x s).store i).trains =
        if (s.train x).state = .ready then (s.store i).trains.filter (· ≠ x) else (s.store i).trains)
      ∧ ((s.train x).state ≠ .ready → Latched .trainEvent (expire x s)) :=
  ⟨fun _ => expire_train_other, expire_touches s x, fun i => congrArg Store.trains (expire_store i),
    fun hr => expire_latched (hevent hr)⟩

/-- A row of a timer's last count is the expiry of R101 step 1 (log 8). -/
theorem expiryRow_eq {f : TrainIx → State → State} {st : TrainState} (hs : inReset s = false)
    (h1 : (s.train x).stateTimer = 1) (hst : (s.train x).state = st) (hf : f x s = expire x s) :
    unlessHeld (fun u => if (u.train x).state = st ∧ (u.train x).stateTimer = 1 then f x u else u) s = expire x s :=
  (unlessHeld_taken s _ hs).trans ((if_pos ⟨hst, h1⟩).trans hf)

/-! ### A train's second (R101) -/

theorem countTimer_train_other {y : TrainIx} (hy : y ≠ x) : (countTimer x s).train y = s.train y := by
  unfold countTimer; dsimp only
  split
  · rfl
  · split
    · exact expire_train_other hy
    · exact (setTrain_train s x y _).trans (if_neg hy)

/-- After the counts of R101 the class that an expiry judged on the way makes no difference. -/
theorem countTimer_counted : classed s.limits x ((countTimer x s).train x).counted =
    classed s.limits x ((s.train x).timed (paramsOf s x) x).counted := by
  unfold countTimer Train.timed; dsimp only
  by_cases h0 : (s.train x).stateTimer = 0
  · rw [if_pos h0, if_pos h0]
  · rw [if_neg h0, if_neg h0]
    by_cases h1 : (s.train x).stateTimer = 1
    · rw [if_pos h1, if_neg (by simp [h1])]
      by_cases htimed : (s.train x).state = .ready ∨
          (s.train x).Announced
      · rw [expire_train_timed htimed]
        exact classed_counted_classed _ _ (Train.expired_ne_starting _ _ _)
      · rw [expire_untimed (fun h => htimed (.inr h)) (fun h => htimed (.inl h)), setTrain_train, if_pos rfl]
    · rw [if_neg h1, if_pos (by simp [h1]), setTrain_train, if_pos rfl]

theorem trainSecond_train (y : TrainIx) : (trainSecond x s).train y =
    if y = x then classed s.limits x ((s.train x).timed (paramsOf s x) x).counted else s.train y := by
  have hlimits : (countTimer x s).limits = s.limits := (countTimer_touches s x).get .limits
  refine (putTrain_train _ x y _).trans ?_
  rw [hlimits]
  split
  · exact countTimer_counted
  next hy => exact countTimer_train_other hy

theorem countTimer_store (i : StoreIx) : (countTimer x s).store i =
    { s.store i with
      trains := (s.store i).trains.filter fun y => !(decide (y = x) && (s.train y).leavesStore) } := by
  have hstays : (s.train x).leavesStore = false →
      (s.store i).trains.filter (fun y => !(decide (y = x) && (s.train y).leavesStore)) = (s.store i).trains := fun h => by
    refine List.filter_eq_self.mpr fun y _ => ?_
    by_cases hy : y = x
    · subst hy; simp [h]
    · simp [hy]
  unfold countTimer; dsimp only
  split
  next h0 => rw [hstays (by simp [Train.leavesStore, h0])]
  next h0 =>
    split
    next h1 =>
      rw [expire_store]
      split
      next hready =>
        have hleaves : (s.train x).leavesStore = true := by simp [Train.leavesStore, h1, hready]
        refine congrArg (fun l => { s.store i with trains := l }) (List.filter_congr fun y _ => ?_)
        by_cases hy : y = x
        · subst hy; simp [hleaves]
        · simp [hy]
      next hready => rw [hstays (by simp [Train.leavesStore, hready])]
    next h1 => rw [hstays (by simp [Train.leavesStore, h1])]; rfl

theorem trainSecond_store (i : StoreIx) : (trainSecond x s).store i =
    { s.store i with
      trains := (s.store i).trains.filter fun y => !(decide (y = x) && (s.train y).leavesStore) } :=
  (congrArg (fun v : Heat => v.store.get i) (putTrain_heat _ x _)).trans (countTimer_store i)

theorem trainSecond_latched (h1 : (s.train x).stateTimer = 1)
    (h : (s.train x).Announced) :
    Latched .trainEvent (trainSecond x s) := by
  have hexpired : countTimer x s = expire x s := (if_neg (by rw [h1]; decide)).trans (if_pos h1)
  refine (putTrain_quiet (countTimer x s) x _).port.2 _ ?_
  rw [hexpired]
  exact expire_latched h

end

/-! ### The trains in turn -/

theorem eachTrain_trainSecond_train (y : TrainIx) : ∀ (xs : List TrainIx) (s : State), xs.Nodup →
    (eachTrain trainSecond xs s).train y =
      if y ∈ xs then classed s.limits y ((s.train y).timed (paramsOf s y) y).counted else s.train y
  | [], _, _ => rfl
  | x :: xs, s, hn => by
    obtain ⟨hx, hxs⟩ := List.nodup_cons.mp hn
    have hlimits : (trainSecond x s).limits = s.limits := (trainSecond_touches s x).get .limits
    rw [eachTrain_cons, eachTrain_trainSecond_train y xs _ hxs, trainSecond_train, hlimits,
      paramsOf_of_touches (trainSecond_touches s x)]
    by_cases hy : y = x
    · subst hy; simp [hx]
    · simp [hy]

theorem eachTrain_trainSecond_store (i : StoreIx) : ∀ (xs : List TrainIx) (s : State), xs.Nodup →
    (eachTrain trainSecond xs s).store i =
      { s.store i with trains := (s.store i).trains.filter fun y => !(decide (y ∈ xs) && (s.train y).leavesStore) }
  | [], s, _ => by simp [eachTrain]
  | x :: xs, s, hn => by
    obtain ⟨hx, hxs⟩ := List.nodup_cons.mp hn
    rw [eachTrain_cons, eachTrain_trainSecond_store i xs _ hxs, trainSecond_store]
    simp only [List.filter_filter]
    refine congrArg (fun l => { s.store i with trains := l }) (List.filter_congr fun y _ => ?_)
    by_cases hy : y = x
    · subst hy; simp [hx]
    · simp [hy, trainSecond_train]

theorem eachTrain_trainSecond_latched {y : TrainIx} (xs : List TrainIx) (s : State) (hn : xs.Nodup) (hmem : y ∈ xs)
    (h1 : (s.train y).stateTimer = 1)
    (h : (s.train y).Announced) :
    Latched .trainEvent (eachTrain trainSecond xs s) := by
  induction xs generalizing s with
  | nil => cases hmem
  | cons x xs ih =>
    obtain ⟨hx, hxs⟩ := List.nodup_cons.mp hn
    have hrest : PortGrows (trainSecond x s) (eachTrain trainSecond xs (trainSecond x s)) :=
      (eachTrain_quiet _ _ (fun z u => trainSecond_quiet u z) xs).port
    rw [eachTrain_cons]
    by_cases hy : y = x
    · subst hy
      exact hrest.2 _ (trainSecond_latched h1 h)
    · have hstands : (trainSecond x s).train y = s.train y := (trainSecond_train y).trans (if_neg hy)
      have hlater := ih (trainSecond x s) hxs ((List.mem_cons.mp hmem).resolve_left hy)
      rw [hstands] at hlater
      exact hlater h1 h

/-! ### The sequencer's response to a second (R101) -/

theorem TrainIx.all_nodup : TrainIx.all.Nodup := by decide

section
variable (s : State)

/-- The trains in turn, and then the cycles of the heaters. -/
theorem trainsSecond_eq : ∃ a b, trainsSecond s =
    (eachTrain trainSecond TrainIx.all s).withTrains
      { (eachTrain trainSecond TrainIx.all s).trains with timerA := a, timerB := b } := ⟨_, _, rfl⟩

theorem withCycles_train (a b : Cycle) (x : TrainIx) :
    (s.withTrains { s.trains with timerA := a, timerB := b }).train x = s.train x := rfl

theorem trainsSecond_train (x : TrainIx) :
    (trainsSecond s).train x = classed s.limits x ((s.train x).timed (paramsOf s x) x).counted := by
  obtain ⟨a, b, h⟩ := trainsSecond_eq s
  rw [h, withCycles_train, eachTrain_trainSecond_train x _ s TrainIx.all_nodup, if_pos (TrainIx.mem_all x)]

theorem trainsSecond_timers : (trainsSecond s).trains.timerA = s.trains.timerA.advance
    ∧ (trainsSecond s).trains.timerB = s.trains.timerB.advance := by
  have h := trainsSecond_cycles s
  rw [heaterCycles] at h
  exact Prod.mk.inj h

theorem trainsSecond_heat : (trainsSecond s).heat = (eachTrain trainSecond TrainIx.all s).heat := by
  obtain ⟨a, b, h⟩ := trainsSecond_eq s
  rw [h, State.withTrains_heat]

theorem trainsSecond_store (i : StoreIx) : (trainsSecond s).store i =
    { s.store i with trains := (s.store i).trains.filter fun x => !(s.train x).leavesStore } := by
  have h := eachTrain_trainSecond_store i _ s TrainIx.all_nodup
  simp only [TrainIx.mem_all, decide_true, Bool.true_and] at h
  rw [State.store, trainsSecond_heat]
  exact h

theorem trainsSecond_summary : (trainsSecond s).heat.summary = s.heat.summary := by
  rw [trainsSecond_heat]
  exact (eachTrain_quiet s _ (fun x u => trainSecond_quiet u x) TrainIx.all).summary

theorem trainsSecond_latched {s : State} {x : TrainIx} (h1 : (s.train x).stateTimer = 1)
    (h : (s.train x).Announced) :
    Latched .trainEvent (trainsSecond s) := by
  obtain ⟨a, b, heq⟩ := trainsSecond_eq s
  rw [heq]
  exact (PortGrows.of_touches (touches_withTrains _ _)).2 _
    (eachTrain_trainSecond_latched _ s TrainIx.all_nodup (TrainIx.mem_all x) h1 h)

/-- With the other blocks' responses put off, a second with nothing due is the sequencer's and the clock's (log 24). -/
theorem exec_trainsSecond_alone (hs : inReset s = false) (hd : s.due = []) :
    ∃ d t, exec (.secondEvent ⟨[], othersThan .trainsSecond⟩) s = .next t
      ∧ Touches [.clock, .due] (trainsSecond (s.withDue d)) t := by
  obtain ⟨d, e, h⟩ := secondNow_alone (p := .trainsSecond) rfl (by decide) hd
  exact ⟨d, _, congrArg Host.Outcome.next ((unlessHeld_taken s _ hs).trans h),
    (clockSecond_touches _).comp (touches_withDue _ e)⟩

end

end Sys2Proof.Machine
end

section
open Sys2Proof Sys2Proof.Machine

set_option Elab.async false

/-- Settles O34: each row is the expiry of R101 step 1, and a second made alone is that of each train in turn. -/
theorem trainTimersExpire : Obligations.TrainTimersExpire := by
  refine ⟨fun s x hs h1 => ?_, fun s hs hd => ?_⟩
  · dsimp only
    refine ⟨fun hst => ?_, fun hst => ?_, fun hst => ?_, fun hst => ?_⟩
    · have hrow : enterReady x s = expire x s := by simp only [expire, hst]
      refine ⟨_, congrArg Host.Outcome.next (expiryRow_eq hs h1 hst hrow), ?_, expire_leaves fun _ => .inl hst⟩
      rw [expire_train_timed (.inr (.inl hst))]
      simp only [Train.expired, hst, classed, judgedClass]
    · have hrow : enterStopping x s = expire x s := by simp only [expire, hst]
      refine ⟨_, congrArg Host.Outcome.next (expiryRow_eq hs h1 hst hrow), ?_, expire_leaves fun hr => absurd hst hr⟩
      rw [expire_train_timed (.inl hst)]
      simp only [Train.expired, hst, classed, judgedClass]
    · have hrow : enterCooldown x s = expire x s := by simp only [expire, hst]
      refine ⟨_, congrArg Host.Outcome.next (expiryRow_eq hs h1 hst hrow), ?_, expire_leaves fun _ => .inr (.inl hst)⟩
      rw [expire_train_timed (.inr (.inr (.inl hst)))]
      simp only [Train.expired, hst, classed]
    · have hrow : enterIdle x s = expire x s := by simp only [expire, hst]
      refine ⟨_, congrArg Host.Outcome.next (expiryRow_eq hs h1 hst hrow), ?_, expire_leaves fun _ => .inr (.inr hst)⟩
      rw [expire_train_timed (.inr (.inr (.inr hst)))]
      simp only [Train.expired, hst, classed]
  · obtain ⟨d, t, ht, hf⟩ := exec_trainsSecond_alone s hs hd
    have htrains : t.trains = (trainsSecond (s.withDue d)).trains := hf.get .trains
    have hheat : t.heat = (trainsSecond (s.withDue d)).heat := hf.get .heat
    obtain ⟨htimerA, htimerB⟩ := trainsSecond_timers (s.withDue d)
    refine ⟨t, ht, fun x => ?_, by rw [htrains]; exact htimerA, by rw [htrains]; exact htimerB, fun i => ?_,
      by rw [hheat]; exact trainsSecond_summary _, fun x h1 hx => ?_, ?_⟩
    · rw [State.train, htrains]
      exact (trainsSecond_train (s.withDue d) x).trans rfl
    · rw [State.store, hheat]
      exact trainsSecond_store (s.withDue d) i
    · have hlatched := trainsSecond_latched (s := s.withDue d) (of_decide_eq_true h1) hx
      exact (PortGrows.of_touches hf).2 _ hlatched
    · exact Touches.comp (Touches.comp (gs := [.trains, .heat, .proj, .port, .due]) (touches_withDue s d)
        (trainsSecond_touches _)) hf

end

section
/-! SUPPORT. O36: what a trip makes of the train, of its store and of its pins (R106, R110, R111). -/

namespace Sys2Proof.Machine

set_option Elab.async false

/-- R110: a train's record after a trip that is counted, its class apart. -/
def Train.tripped (lock : Nat) (v : Train) : Train :=
  { v with
    state := if lock ≤ min 255 (v.tripsToday + 1) then .lockedOut else .tripped
    setpoint := 0, stateTimer := 0, warm := false, tripsToday := min 255 (v.tripsToday + 1)
    downSince := if v.state.stoppable then 0 else v.downSince }

/-- R106: PERMIT is released to a train that has tripped. -/
theorem Train.tripped_notPermitted (lock : Nat) (v : Train) : (v.tripped lock).state.permitted = false := by
  simp only [Train.tripped]; split <;> rfl

theorem classed_state (l : Limits) (x : TrainIx) (v : Train) : (classed l x v).state = v.state := rfl

theorem TrainState.stoppable_iff (st : TrainState) :
    st.stoppable = true ↔ st = .starting ∨ st = .ready ∨ st = .running := by
  cases st <;> decide

section
variable (s : State) (x : TrainIx)

theorem countTrip_train (y : TrainIx) : (countTrip x s).train y =
    if y = x then classed s.limits x ((s.train x).tripped s.limits.tripsLock) else s.train y := by
  rw [countTrip, basisChange_train]
  exact setTrain_train (releaseStore x s) x y _

theorem countTrip_offStores : OffStores x (countTrip x s) := by
  have hheat : (countTrip x s).heat = (releaseStore x s).heat := by rw [countTrip, basisChange_heat]; rfl
  intro i
  rw [State.store, hheat]
  exact releaseStore_offStores x s i

theorem countTrip_latched : Latched .trip (countTrip x s) := (basisChangeAt_portGrows _ _).2 _ (latched_raise _ _)

/-- R110: out of service or locked out only the line is noted. -/
theorem tripAssert_noted (hl : (s.train x).tripLine = false)
    (h : (s.train x).state = .outOfService ∨ (s.train x).state = .lockedOut) :
    tripAssert x s = s.setTrain x { s.train x with tripLine := true } := by
  unfold tripAssert
  rw [if_neg (by simp [hl])]
  rcases h with h | h <;> simp only [h]

end

end Sys2Proof.Machine
end

section
open Sys2Proof Sys2Proof.Machine

set_option Elab.async false

/-- Settles O36: the record is Train.tripped, written on the state in which the line is noted and the train has left its store. -/
theorem tripStopsTrain : Obligations.TripStopsTrain := by
  intro s x hs
  refine ⟨fun hl ho hk => ?_, fun hl hst => ?_, fun _ => congrArg Host.Outcome.next (unlessHeld_taken s _ hs)⟩
  · have hexec := exec_tripAssertion hs hl ho hk
    have hline : (s.setTrain x { s.train x with tripLine := true }).train x = { s.train x with tripLine := true } :=
      (setTrain_train s x x _).trans (if_pos rfl)
    have hothers : ∀ y, y ≠ x → (s.setTrain x { s.train x with tripLine := true }).train y = s.train y := fun y hy =>
      (setTrain_train s x y _).trans (if_neg hy)
    have hframe : Touches [.trains, .heat, .proj, .port] s
        (countTrip x (s.setTrain x { s.train x with tripLine := true })) :=
      (setTrain_touches s x _).comp (countTrip_touches _ x)
    have htrain := countTrip_train (s.setTrain x { s.train x with tripLine := true }) x
    have hself := (htrain x).trans (if_pos rfl)
    rw [hline, setTrain_limits] at hself
    refine ⟨_, hexec, congrArg Train.state hself, congrArg Train.setpoint hself, congrArg Train.stateTimer hself,
      congrArg Train.tripsToday hself, congrArg Train.tripLine hself, congrArg Train.warm hself, ?_,
      (congrArg Train.startLimited hself).trans rfl, (congrArg Train.excursionStopped hself).trans rfl, ?_,
      (trainStore_none_iff _ x).mpr (countTrip_offStores _ x),
      fun y hy => (htrain y).trans ((if_neg hy).trans (hothers y hy)), countTrip_latched _ x, hframe⟩
    · simp only [← TrainState.stoppable_iff]
      exact congrArg Train.downSince hself
    · rw [permit, hself, classed_state, Train.tripped_notPermitted, Bool.and_false]
  · exact congrArg Host.Outcome.next ((unlessHeld_taken s _ hs).trans (tripAssert_noted s x hl hst))

end

section
/-! SUPPORT. O37: TRAIN_RESET, TRAIN_UNLOCK and TRAIN_SERVICE by the index and the direction they name and the state of the train
(R112 to R114). -/

namespace Sys2Proof.Machine

set_option Elab.async false

section
variable {s : State} {index direction : Byte}

/-! ### What is refused -/

theorem ownTrainReset_badArgument (h : 7 ≤ index.toNat) : ownTrainReset index s = answer 0x31 .badArgument [] s := by
  simp only [ownTrainReset, trainOf_none h]; rfl

theorem ownTrainUnlock_badArgument (h : 7 ≤ index.toNat) : ownTrainUnlock index s = answer 0x32 .badArgument [] s := by
  simp only [ownTrainUnlock, trainOf_none h]; rfl

theorem ownTrainService_badArgument (h : 7 ≤ index.toNat ∨ 2 ≤ direction.toNat) :
    ownTrainService index direction s = answer 0x30 .badArgument [] s := by
  rcases h with h | h
  · simp only [ownTrainService, trainOf_none h]; rfl
  · cases hi : trainOf index <;> simp only [ownTrainService, returnOf_none h, hi] <;> rfl

section
variable {x : TrainIx} (hx : trainOf index = some x)
include hx

theorem ownTrainReset_wrongState (h : (s.train x).state ≠ .tripped ∨ (s.train x).tripLine = true) :
    ownTrainReset index s = answer 0x31 .wrongState [] s := by
  simp only [ownTrainReset, hx]; exact if_pos h

theorem ownTrainUnlock_wrongState (h : (s.train x).state ≠ .lockedOut ∨ (s.train x).tripLine = true) :
    ownTrainUnlock index s = answer 0x32 .wrongState [] s := by
  simp only [ownTrainUnlock, hx]; exact if_pos h

theorem ownTrainService_outRefused (h : (s.train x).state.removable = false) :
    ownTrainService index 0 s = answer 0x30 .wrongState [] s := by
  simp only [ownTrainService, hx, show returnOf 0 = some false from rfl, h]; rfl

theorem ownTrainService_returnRefused (h : (s.train x).state ≠ .outOfService ∨ (s.train x).tripLine = true) :
    ownTrainService index 1 s = answer 0x30 .wrongState [] s := by
  simp only [ownTrainService, hx, show returnOf 1 = some true from rfl]; exact if_pos h

/-! ### What is taken -/

theorem ownTrainReset_taken (hstate : (s.train x).state = .tripped) (hl : (s.train x).tripLine = false) :
    ownTrainReset index s = answer 0x31 .ok
      (u8 ((takeBack x s).train x).state.code ++ u8 ((takeBack x s).train x).tripsToday) (takeBack x s) := by
  simp only [ownTrainReset, hx]; exact if_neg (by simp [hstate, hl])

/-- R113: a train that is unlocked goes to COOLDOWN and its trips are forgotten. -/
def unlocked (s : State) (x : TrainIx) : State :=
  basisChange (raise .trainEvent (putTrainCovered x { cooled s x with tripsToday := 0 } s))

theorem ownTrainUnlock_taken (hstate : (s.train x).state = .lockedOut) (hl : (s.train x).tripLine = false) :
    ownTrainUnlock index s = answer 0x32 .ok
      (u8 ((unlocked s x).train x).state.code ++ u8 ((unlocked s x).train x).tripsToday) (unlocked s x) := by
  simp only [ownTrainUnlock, hx]; exact if_neg (by simp [hstate, hl])

theorem ownTrainService_out (h : (s.train x).state.removable = true) :
    ownTrainService index 0 s = answer 0x30 .ok (u8 ((takeOut x s).train x).state.code) (takeOut x s) := by
  simp only [ownTrainService, hx, show returnOf 0 = some false from rfl]; exact if_pos h

theorem ownTrainService_return (hstate : (s.train x).state = .outOfService) (hl : (s.train x).tripLine = false) :
    ownTrainService index 1 s = answer 0x30 .ok (u8 ((takeBack x s).train x).state.code) (takeBack x s) := by
  simp only [ownTrainService, hx, show returnOf 1 = some true from rfl]; exact if_neg (by simp [hstate, hl])

end

theorem TrainState.removable_iff (st : TrainState) :
    st.removable = true ↔ st = .idle ∨ st = .cooldown ∨ st = .tripped ∨ st = .lockedOut := by cases st <;> decide

end

/-! ### One train moved by a request -/

/-- From s a request has written v as the record of x, raised TRAIN_EVENT if event, handed on a basis change and answered. -/
structure MovedByRequest (s : State) (x : TrainIx) (v : Train) (event : Bool) (code : Byte) (payload : List Byte) (t : State) :
    Prop where
  train : t.train x = { v with startClass := judgedClass s.limits x v }
  others : ∀ y, y ≠ x → t.train y = s.train y
  answered : Answered code .ok payload t
  latched : t.port.latched = s.port.latched ||| (if event then Notice.trainEvent.bit else 0)
  walk : s.proj.state ≠ .unavailable → t.proj.state = .stale ∧ t.proj.walk = some (walkInputs t)
  touches : Touches [.trains, .proj, .port, .supervision] s t

/-- A request that writes the record, may raise TRAIN_EVENT, and hands on a basis change. -/
theorem movedByRequest {s : State} (x : TrainIx) (v : Train) (event : Bool) (code : Byte) (payload : List Byte) {u : State}
    (hu : u = if event then raise .trainEvent (putTrainCovered x v s.accepted) else putTrainCovered x v s.accepted) :
    MovedByRequest s x v event code payload (answer code .ok payload (basisChange u)) := by
  have hput : Touches [.trains, .proj, .port, .supervision] s (putTrainCovered x v s.accepted) :=
    (accepted_touches s).comp (putTrainCovered_touches _ x v)
  have hraise : Touches [.port] (putTrainCovered x v s.accepted) u := by
    rw [hu]
    split
    · exact raise_touches _ _
    · exact Touches.same _ _
  have hframe : Touches [.proj, .port] u (answer code .ok payload (basisChange u)) :=
    (basisChange_touches u).comp (answer_touches _ _ _ _)
  have htrain : ∀ y, (answer code .ok payload (basisChange u)).train y = (putTrainCovered x v s.accepted).train y := fun y =>
    congrArg (fun ts : Trains => ts.train.get y) ((hframe.get .trains).trans (hraise.get .trains))
  have hproj : u.proj = s.proj := (hraise.get .proj).trans (accepted_proj s)
  refine ⟨(htrain x).trans ?_, fun y hy => (htrain y).trans ?_, ⟨rfl, rfl⟩, ?_, fun hp => ?_, ?_⟩
  · exact (setTrain_train _ x x _).trans ((if_pos rfl).trans (by rw [accepted_limits]; rfl))
  · exact (setTrain_train _ x y _).trans ((if_neg hy).trans (accepted_train s y))
  · have haccepted : s.accepted.port.latched = s.port.latched := by rw [accepted_port]
    rw [answer_latched, basisChange, basisChangeAt_latched, hu, ← haccepted]
    cases event
    · exact (BitVec.or_zero).symm
    · rfl
  · rw [← hproj] at hp
    rw [walkInputs_of_touches hframe]
    exact basisChangeAt_walk hp
  · exact (hput.trans (hraise.mono (by decide))).trans (hframe.mono (by decide))

theorem cooled_accepted (s : State) (x : TrainIx) : cooled s.accepted x = cooled s x := by
  rw [cooled, cooled, accepted_train, accepted_paramsOf]

/-- R114: a train in COOLDOWN again, by a reset or a return. -/
theorem takeBack_moved (s : State) (x : TrainIx) (code : Byte) (payload : List Byte) :
    MovedByRequest s x (cooled s x) true code payload (answer code .ok payload (takeBack x s.accepted)) := by
  have h := movedByRequest (s := s) x (cooled s x) true code payload rfl
  rw [← cooled_accepted] at h ⊢
  exact h

theorem unlocked_moved (s : State) (x : TrainIx) (code : Byte) (payload : List Byte) :
    MovedByRequest s x { cooled s x with tripsToday := 0 } true code payload
      (answer code .ok payload (unlocked s.accepted x)) := by
  have h := movedByRequest (s := s) x { cooled s x with tripsToday := 0 } true code payload rfl
  rw [← cooled_accepted] at h ⊢
  exact h

theorem takeOut_moved (s : State) (x : TrainIx) (code : Byte) (payload : List Byte) :
    MovedByRequest s x { s.train x with state := .outOfService, stateTimer := 0, downSince := 86401, warm := false } false
      code payload (answer code .ok payload (takeOut x s.accepted)) := by
  have h := movedByRequest (s := s) x
    { s.train x with state := .outOfService, stateTimer := 0, downSince := 86401, warm := false } false code payload rfl
  rw [← accepted_train] at h ⊢
  exact h

end Sys2Proof.Machine
end

section
open Sys2Proof Sys2Proof.Machine

set_option Elab.async false

/-- Settles O37: each refusal on the accepted state, and else one record written, with a basis change, and answered. -/
theorem trainStateRequests : Obligations.TrainStateRequests := by
  intro s h index direction
  dsimp only
  refine ⟨fun hg => ?_, fun hg => ?_, fun hg => ?_⟩
  · rw [Refuses, exec_trainReset h index hg]
    refine ⟨fun hbad => by rw [ownTrainReset_badArgument hbad], fun x hx => ⟨fun hwrong => ?_, fun hstate hl => ?_⟩⟩
    · rw [Refuses, exec_trainReset h index hg, ownTrainReset_wrongState hx (by rwa [accepted_train])]
    · have hm := takeBack_moved s x 0x31
        (u8 ((takeBack x s.accepted).train x).state.code ++ u8 ((takeBack x s.accepted).train x).tripsToday)
      rw [ownTrainReset_taken hx (by rwa [accepted_train]) (by rwa [accepted_train])]
      refine ⟨_, rfl, hm.train, hm.others, ?_, hm.latched, hm.walk, hm.touches⟩
      have htrips : ((takeBack x s.accepted).train x).tripsToday = (s.train x).tripsToday :=
        (congrArg Train.tripsToday hm.train).trans rfl
      rw [← htrips]
      exact hm.answered
  · rw [Refuses, exec_trainUnlock h index hg]
    refine ⟨fun hbad => by rw [ownTrainUnlock_badArgument hbad], fun x hx => ⟨fun hwrong => ?_, fun hstate hl => ?_⟩⟩
    · rw [Refuses, exec_trainUnlock h index hg, ownTrainUnlock_wrongState hx (by rwa [accepted_train])]
    · have hm := unlocked_moved s x 0x32
        (u8 ((unlocked s.accepted x).train x).state.code ++ u8 ((unlocked s.accepted x).train x).tripsToday)
      rw [ownTrainUnlock_taken hx (by rwa [accepted_train]) (by rwa [accepted_train])]
      refine ⟨_, rfl, hm.train, hm.others, ?_, hm.latched, hm.walk, hm.touches⟩
      have htrips : ((unlocked s.accepted x).train x).tripsToday = 0 := (congrArg Train.tripsToday hm.train).trans rfl
      rw [← htrips]
      exact hm.answered
  · rw [Refuses, exec_trainService h index direction hg]
    refine ⟨fun hbad => by rw [ownTrainService_badArgument hbad],
      fun x hx => ⟨?_, ?_, ?_, ?_⟩⟩
    · rintro rfl hstays
      rw [Refuses, exec_trainService h index 0 hg, ownTrainService_outRefused hx]
      rw [accepted_train]
      exact Bool.eq_false_iff.mpr fun hr => hstays ((TrainState.removable_iff _).mp hr)
    · rintro rfl hwrong
      rw [Refuses, exec_trainService h index 1 hg, ownTrainService_returnRefused hx (by rwa [accepted_train])]
    · rintro rfl hout
      have hm := takeOut_moved s x 0x30 (u8 ((takeOut x s.accepted).train x).state.code)
      rw [ownTrainService_out hx (by rw [accepted_train]; exact (TrainState.removable_iff _).mpr hout)]
      exact ⟨_, rfl, hm.train, hm.others, hm.answered, hm.latched, hm.walk, hm.touches⟩
    · rintro rfl hstate hl
      have hm := takeBack_moved s x 0x30 (u8 ((takeBack x s.accepted).train x).state.code)
      rw [ownTrainService_return hx (by rwa [accepted_train]) (by rwa [accepted_train])]
      exact ⟨_, rfl, hm.train, hm.others, hm.answered, hm.latched, hm.walk, hm.touches⟩

end

section
/-! SUPPORT. O38: the ranks of TRAIN_PRIORITY (R123), the heater of HEATER_ASSIGN (R121), the cycles of HEATER_TIMER (R122), and when
HEAT is driven (R120). -/

namespace Sys2Proof.Machine

set_option Elab.async false

/-! ### Ranks (R123) -/

/-- A list read element by element is read where every element is. -/
theorem mapM_option_iff {α β : Type} (f : α → Option β) (l : List α) (ys : List β) :
    l.mapM f = some ys ↔ l.map f = ys.map some := by
  induction l generalizing ys with
  | nil => cases ys <;> simp
  | cons a l ih =>
    have hcons : (a :: l).mapM f = some ys ↔ ∃ b, f a = some b ∧ ∃ bs, l.mapM f = some bs ∧ b :: bs = ys := by
      simp [Option.bind_eq_some_iff]
    rw [hcons]
    cases ys with
    | nil => simp
    | cons y ys => simp [← ih]

theorem Side.trains_nodup (d : Side) : d.trains.Nodup := by cases d <;> decide

/-- R123: the list is taken exactly if it is the side's trains in some order. -/
theorem priorityOf_iff (d : Side) (order : List Byte) (ts : List TrainIx) :
    priorityOf d order = some ts ↔ order.map trainOf = ts.map some ∧ ts.Perm d.trains := by
  have hperm : ∀ l : List TrainIx, (l.length = d.trains.length ∧ d.trains.all (fun t => l.contains t) = true) ↔
      l.Perm d.trains := fun l => by
    simp only [List.all_eq_true, List.contains_iff_mem]
    refine ⟨fun ⟨hlength, hmem⟩ => ?_, fun h => ⟨h.length_eq, fun x hx => h.mem_iff.mpr hx⟩⟩
    exact (((Side.trains_nodup d).subperm hmem).perm_of_length_le hlength.le).symm
  simp only [priorityOf, hperm, ← mapM_option_iff]
  cases order.mapM trainOf with
  | none => simp
  | some l =>
    simp only [Option.bind_eq_bind, Option.bind_some, Option.ite_none_right_eq_some]
    rw [and_comm]
    exact and_congr_right fun hl => by rw [Option.some.inj hl]

/-- Each train of the list takes the rank that is its own. -/
theorem eachTrain_rank_train (rank : TrainIx → Nat) (xs : List TrainIx) (s : State) (y : TrainIx) :
    (eachTrain (fun x u => u.setTrain x { u.train x with rank := rank x }) xs s).train y =
      if y ∈ xs then { s.train y with rank := rank y } else s.train y := by
  induction xs generalizing s with
  | nil => simp [eachTrain]
  | cons x xs ih =>
    rw [eachTrain_cons, ih, setTrain_train]
    by_cases hy : y = x
    · subst hy; simp
    · simp [hy]

theorem rankTrains_train (ts : List TrainIx) (s : State) (y : TrainIx) : (rankTrains ts s).train y =
    if y ∈ ts then { s.train y with rank := ts.idxOf y + 1 } else s.train y :=
  eachTrain_rank_train (fun x => ts.idxOf x + 1) ts s y

section
variable {s : State} {side : Byte} {order : List Byte}

theorem ownTrainPriority_taken {d : Side} {ts : List TrainIx} (hd : sideOfByte side = some d)
    (hts : order.map trainOf = ts.map some) (hperm : ts.Perm d.trains) : ownTrainPriority side order s =
      answer 0x33 .ok (d.trains.flatMap fun x => u8 (ts.idxOf x + 1)) (rankTrains ts s) := by
  have hranks : (d.trains.flatMap fun x => u8 ((rankTrains ts s).train x).rank) =
      d.trains.flatMap fun x => u8 (ts.idxOf x + 1) := List.flatMap_congr fun x hx => by
    rw [rankTrains_train, if_pos (hperm.mem_iff.mpr hx)]
  simp only [ownTrainPriority, hd, (priorityOf_iff d order ts).mpr ⟨hts, hperm⟩, Option.bind_some, Option.map_some, hranks]
  rfl

theorem ownTrainPriority_badArgument
    (h : ∀ d (ts : List TrainIx), sideOfByte side = some d → order.map trainOf = ts.map some → ¬ ts.Perm d.trains) :
    ownTrainPriority side order s = answer 0x33 .badArgument [] s := by
  have hnone : ((sideOfByte side).bind fun d => (priorityOf d order).map fun ts => (d, ts)) = none := by
    refine Option.bind_eq_none_iff.mpr fun d hd => Option.map_eq_none_iff.mpr ?_
    refine Option.eq_none_iff_forall_ne_some.mpr fun ts hts => ?_
    obtain ⟨hlist, hperm⟩ := (priorityOf_iff d order ts).mp hts
    exact h d ts hd hlist hperm
  simp only [ownTrainPriority, hnone]
  rfl

end

/-! ### Heaters (R120, R121) -/

theorem heaterOf_none {b : Byte} (h : 4 ≤ b.toNat) : heaterOf b = none := List.getElem?_eq_none h

/-- R99: indices 0 to 3 are the compressors. -/
theorem trainOf_compressor {b : Byte} (h : b.toNat < 4) : ∃ x, trainOf b = some x ∧ x.side = .charge :=
  (by decide : ∀ n : Fin 4, ∃ x, TrainIx.all[n.val]? = some x ∧ x.side = .charge) ⟨b.toNat, h⟩

section
variable {s : State} {index heater : Byte}

theorem ownHeaterAssign_badArgument (h : index.toNat < 4 ∨ 7 ≤ index.toNat ∨ 4 ≤ heater.toNat) :
    ownHeaterAssign index heater s = answer 0x34 .badArgument [] s := by
  rcases h with h | h | h
  · obtain ⟨x, hx, hside⟩ := trainOf_compressor h
    cases hg : heaterOf heater <;> simp only [ownHeaterAssign, hx, hg, hside] <;> rfl
  · simp only [ownHeaterAssign, trainOf_none h]; rfl
  · cases hx : trainOf index <;> simp only [ownHeaterAssign, heaterOf_none h, hx] <;> rfl

section
variable {x : TrainIx} {g : Heater} (hx : trainOf index = some x) (hd : x.side = .discharge) (hg : heaterOf heater = some g)
include hx hd hg

theorem ownHeaterAssign_taken : ownHeaterAssign index heater s =
    answer 0x34 .ok
      (u8 ((assignHeater x g s).train x).heater.code ++ flag ((assignHeater x g s).train x).warm
        ++ u8 ((assignHeater x g s).train x).startClass.code) (assignHeater x g s) := by
  simp only [ownHeaterAssign, hx, hg]
  exact if_pos hd

/-- R121: an assignment equal to the present one changes nothing. -/
theorem ownHeaterAssign_same (h : (s.train x).heater = g) : ownHeaterAssign index heater s =
    answer 0x34 .ok (u8 g.code ++ flag (s.train x).warm ++ u8 (s.train x).startClass.code) s := by
  rw [ownHeaterAssign_taken hx hd hg, assignHeater, if_pos h, h]

/-- R121: the record after an assignment that differs from the present one. -/
def Train.heatedBy (l : Limits) (x : TrainIx) (g : Heater) (v : Train) : Train :=
  classed l x { v with heater := g, warm := v.warm && decide (g ≠ Heater.off) }

theorem ownHeaterAssign_changed (h : (s.train x).heater ≠ g) : ownHeaterAssign index heater s =
    answer 0x34 .ok
      (u8 g.code ++ flag ((s.train x).heatedBy s.limits x g).warm ++ u8 ((s.train x).heatedBy s.limits x g).startClass.code)
      (if ((s.train x).heatedBy s.limits x g).startClass = (s.train x).startClass then
        s.setTrain x ((s.train x).heatedBy s.limits x g)
      else basisChange (s.setTrain x ((s.train x).heatedBy s.limits x g))) := by
  have hassign : assignHeater x g s =
      putTrain x { s.train x with heater := g, warm := (s.train x).warm && decide (g ≠ Heater.off) } s := if_neg h
  rw [ownHeaterAssign_taken hx hd hg, hassign, putTrain_train, if_pos rfl]
  rfl

end

end

theorem heaterDriven_iff (ts : Trains) (g : Heater) : heaterDriven ts g = true ↔
    g = .on ∨ g = .cycleA ∧ ts.timerA.phase < ts.timerA.onTime ∨ g = .cycleB ∧ ts.timerB.phase < ts.timerB.onTime := by
  cases g <;> simp [heaterDriven]

theorem TrainState.heats_iff (st : TrainState) : st.heats = true ↔ st = .idle ∨ st = .cooldown ∨ st = .starting := by
  cases st <;> decide

/-- R120: when the HEAT output of a train is driven. -/
theorem heatOutput_iff (s : State) (x : TrainIx) : heatOutput s x = true ↔
    inReset s = false ∧ x.side = .discharge
      ∧ ((s.train x).state = .idle ∨ (s.train x).state = .cooldown ∨ (s.train x).state = .starting)
      ∧ ((s.train x).heater = .on ∨ (s.train x).heater = .cycleA ∧ s.trains.timerA.phase < s.trains.timerA.onTime
        ∨ (s.train x).heater = .cycleB ∧ s.trains.timerB.phase < s.trains.timerB.onTime) := by
  simp only [heatOutput, Bool.and_eq_true, Bool.not_eq_true', decide_eq_true_eq, TrainState.heats_iff, heaterDriven_iff,
    and_assoc]

/-! ### Cycles (R122) -/

theorem cycleTimerOf_none {b : Byte} (h : 2 ≤ b.toNat) : cycleTimerOf b = none := List.getElem?_eq_none h

/-- R122: the times a cycle may take. -/
abbrev CycleInRange (period onTime : Half) : Prop :=
  10 ≤ period.toNat ∧ period.toNat ≤ 3600 ∧ 1 ≤ onTime.toNat ∧ onTime.toNat ≤ period.toNat

section
variable {s : State} {timer : Byte} {period onTime : Half}

theorem ownHeaterTimer_badArgument (h : 2 ≤ timer.toNat ∨ ¬ CycleInRange period onTime) :
    ownHeaterTimer timer period onTime s = answer 0x35 .badArgument [] s := by
  cases hk : cycleTimerOf timer with
  | none => simp only [ownHeaterTimer, hk]; rfl
  | some k =>
    have hrange : ¬ CycleInRange period onTime := h.resolve_left fun h2 => by rw [cycleTimerOf_none h2] at hk; cases hk
    simp only [ownHeaterTimer, hk]
    exact if_neg hrange

theorem ownHeaterTimer_taken {k : CycleTimer} (hk : cycleTimerOf timer = some k) (h : CycleInRange period onTime) :
    ownHeaterTimer timer period onTime s =
      answer 0x35 .ok (u16 period.toNat ++ u16 onTime.toNat ++ u16 0) (s.setCycle k ⟨period.toNat, onTime.toNat, 0⟩) := by
  simp only [ownHeaterTimer, hk]
  exact if_pos h

end

end Sys2Proof.Machine
end

section
open Sys2Proof Sys2Proof.Machine

set_option Elab.async false

/-- Settles O38: each request by its lemmas on the accepted state, whose trains and limits are those before the frame. -/
theorem trainSettingRequests : Obligations.TrainSettingRequests := by
  refine fun s h => ⟨fun side order hg => ⟨fun d ts hd hts hperm => ?_, fun hbad => ?_⟩,
    fun index heater hg => ⟨fun hbad => ?_, fun x g hx hd hheater => ⟨fun hsame => ?_, fun hdiffers => ?_⟩⟩,
    heatOutput_iff s, fun timer period onTime hg => ⟨fun hbad => ?_, ?_, ?_⟩⟩
  · rw [exec_trainPriority h side order hg, ownTrainPriority_taken hd hts hperm]
    have htrain : ∀ x, (rankTrains ts s.accepted).train x =
        if x ∈ ts then { s.train x with rank := ts.idxOf x + 1 } else s.train x := fun x => by
      rw [rankTrains_train, accepted_train]
    exact ⟨_, rfl, fun x hx => (htrain x).trans (if_pos hx), fun x hx => (htrain x).trans (if_neg hx), ⟨rfl, rfl⟩,
      Touches.comp ((accepted_touches s).comp (rankTrains_touches _ ts) : Touches [.trains, .port, .supervision] s _)
        (answer_touches _ _ _ _)⟩
  · rw [Refuses, exec_trainPriority h side order hg, ownTrainPriority_badArgument hbad]
  · rw [Refuses, exec_heaterAssign h index heater hg, ownHeaterAssign_badArgument hbad]
  · rw [exec_heaterAssign h index heater hg, ownHeaterAssign_same hx hd hheater (by rwa [accepted_train]), accepted_train]
  · rw [exec_heaterAssign h index heater hg, ownHeaterAssign_changed hx hd hheater (by rwa [accepted_train]), accepted_train,
      accepted_limits]
    rfl
  · rw [Refuses, exec_heaterTimer h timer period onTime hg, ownHeaterTimer_badArgument hbad]
  · rintro rfl hrange
    rw [exec_heaterTimer h 0 period onTime hg, ownHeaterTimer_taken (k := .a) rfl hrange, State.setCycle, accepted_trains]
  · rintro rfl hrange
    rw [exec_heaterTimer h 1 period onTime hg, ownHeaterTimer_taken (k := .b) rfl hrange, State.setCycle, accepted_trains]

end

section
/-! SUPPORT. O40: CLOCK_SET by what it carries and the mode (R130, R146, R162). -/

namespace Sys2Proof.Machine

set_option Elab.async false

/-! ### CLOCK_SET (R130) -/

section
variable {s : State} {n : Word} {dayPos seconds : Half}

/-- R130: a day position or a second that the day has not. -/
abbrev PastTheDay (s : State) (dayPos seconds : Half) : Prop :=
  intervalsPerDay s.limits ≤ dayPos.toNat ∨ s.limits.lInt ≤ seconds.toNat

theorem ownClockSet_badArgument (h : PastTheDay s dayPos seconds) :
    ownClockSet n dayPos seconds s = answer 0x40 .badArgument [] s := if_pos h

theorem ownClockSet_modeRefused (h : ¬ PastTheDay s dayPos seconds) (hm : s.mode ≠ .commissioning) :
    ownClockSet n dayPos seconds s = answer 0x40 .modeRefused [] s := (if_neg h).trans (if_pos hm)

theorem ownClockSet_taken (h : ¬ PastTheDay s dayPos seconds) (hm : s.mode = .commissioning) :
    ownClockSet n dayPos seconds s =
      answer 0x40 .ok (clockBytes (setClock n.toNat dayPos.toNat seconds.toNat s).clock)
        (setClock n.toNat dayPos.toNat seconds.toNat s) := (if_neg h).trans (if_neg (not_not.mpr hm))

end

/-- The interval before a 32-bit number, which wraps from 0 (R146). -/
theorem intervalBefore_word (n : Word) : intervalBefore n.toNat = if n.toNat = 0 then 4294967295 else n.toNat - 1 := by
  have h := n.isLt
  unfold intervalBefore
  split <;> omega

section
variable (m : Nat) (c : Clock) (u : State)

/-- R130, R146, R162: the clock runs from new values, and the three closings hold the interval m. -/
def clockWritten : State := eachDir (setActClosing m) (setDispatchClosing m (u.withClock c))

theorem clockWritten_clock : (clockWritten m c u).clock = c := rfl

theorem clockWritten_dispatch : (clockWritten m c u).dispatch =
    { u.dispatch with closing := { u.dispatch.closing with interval := m } } := rfl

theorem clockWritten_orders : (clockWritten m c u).orders =
    { u.orders with
      up := { u.orders.up with closing := { u.orders.up.closing with interval := m } }
      down := { u.orders.down with closing := { u.orders.down.closing with interval := m } } } := rfl

theorem clockWritten_touches : Touches [.clock, .dispatch, .orders] u (clockWritten m c u) :=
  Touches.comp (Touches.comp (gs := [.clock, .dispatch, .orders]) (touches_withClock u c) (touches_withDispatch _ _))
    (eachDir_touches _ _ fun d v => setActClosing_touches v m d)

end

/-- R130: of the settled state the clock and the closings are written, and a basis change is handed on. -/
theorem setClock_eq (n dayPos seconds : Nat) (s : State) : setClock n dayPos seconds s =
    basisChange (clockWritten (intervalBefore n)
      { running := true, n, s := seconds, dayPos, lastCapture := none } (settle true s)) := rfl

/-! ### The reply of a request that hands on a basis change (R94, R187) -/

section
variable (s : State)

/-- From s to t the port may place a reply, and nothing else on it moves. -/
def OnlyReplies (s t : State) : Prop :=
  ∃ reply inFlight, t.port = { s.port with reply := reply, inFlight := inFlight }

theorem OnlyReplies.of_port_eq {s t : State} (h : t.port = s.port) : OnlyReplies s t := ⟨_, _, h⟩

theorem answerInFlight_onlyReplies (r : Result) (p : List Byte) : OnlyReplies s (answerInFlight r p s) := by
  unfold answerInFlight; split
  · exact .of_port_eq rfl
  · exact ⟨_, _, rfl⟩

theorem countRestart_onlyReplies : OnlyReplies s (countRestart s) := by
  unfold countRestart; split
  · exact .of_port_eq rfl
  all_goals
    split
    · exact .of_port_eq rfl
    · exact answerInFlight_onlyReplies (endTrial s) _ _

theorem basisChange_onlyReplies : OnlyReplies s (basisChange s) := by
  unfold basisChange
  by_cases h : s.proj.state = .unavailable
  · obtain heq | heq := basisChangeAt_unavailable s.clock.n h <;> rw [heq] <;> exact .of_port_eq rfl
  · rw [basisChangeAt_counts h]
    exact countRestart_onlyReplies (startWalkAt s.clock.n s)

/-- R187: the reply takes the place of any that the basis change has placed. -/
theorem OnlyReplies.answer_port {s t : State} (h : OnlyReplies s t) (c : Byte) (r : Result) (p : List Byte) :
    (answer c r p t).port = { s.port with reply := replyFrame c r p, inFlight := none } := by
  obtain ⟨_, _, hport⟩ := h
  rw [answer, State.withPort_port, hport]

/-- R77 to R79: a basis change leaves a walk of the state as it stands, where the engine may walk. -/
theorem basisChange_walks (h : s.proj.state ≠ .unavailable ∨ s.account.basis = .based ∧ s.clock.running = true) :
    (basisChange s).proj.state = .stale ∧ (basisChange s).proj.walk = some (walkInputs s) := by
  by_cases hu : s.proj.state = .unavailable
  · have hsources := h.resolve_left (not_not.mpr hu)
    rw [basisChange, basisChangeAt, hu]
    simp only [hsources, and_self, if_true]
    exact ⟨rfl, rfl⟩
  · exact basisChangeAt_walk hu

end

end Sys2Proof.Machine
end

section
open Sys2Proof Sys2Proof.Machine

set_option Elab.async false

/-- Settles O40: each refusal on the accepted state; and the clock and the closings written on the settled state, with a basis change,
and answered. -/
theorem clockSetStartsClock : Obligations.ClockSetStartsClock := by
  intro s h n dayPos seconds hg bad before u
  have hlimits : PastTheDay s.accepted dayPos seconds ↔ bad := by rw [PastTheDay, accepted_limits]; rfl
  rw [Refuses, Refuses, exec_clockSet h n dayPos seconds hg]
  refine ⟨fun hbad => ?_, fun hbad hm => ?_, fun hbad hm => ?_, fun hd => ?_⟩
  · rw [ownClockSet_badArgument (hlimits.mpr hbad)]
  · rw [ownClockSet_modeRefused (fun hp => hbad (hlimits.mp hp)) (by rwa [accepted_mode])]
  · rw [ownClockSet_taken (fun hp => hbad (hlimits.mp hp)) (by rwa [accepted_mode]), setClock_eq]
    obtain ⟨c, hc⟩ : ∃ c : Clock, c =
      { running := true, n := n.toNat, s := seconds.toNat, dayPos := dayPos.toNat, lastCapture := none } := ⟨_, rfl⟩
    rw [intervalBefore_word, ← hc]
    have hclock := clockWritten_clock before c u
    have hdispatch := clockWritten_dispatch before c u
    have horders := clockWritten_orders before c u
    have hwritten := clockWritten_touches before c u
    change ∃ t, Host.Outcome.next (answer 0x40 .ok (clockBytes (basisChange (clockWritten before c u)).clock)
      (basisChange (clockWritten before c u))) = .next t ∧ _
    generalize clockWritten before c u = w at *
    have hframe : ∀ p, Touches [.proj, .port] w (answer 0x40 .ok p (basisChange w)) := fun p =>
      (basisChange_touches w).comp (answer_touches _ _ _ _)
    have hproj : w.proj = u.proj := hwritten.get .proj
    have haccount : w.account = u.account := hwritten.get .account
    have hport : w.port = u.port := hwritten.get .port
    refine ⟨_, rfl, ((hframe _).get .clock).trans hclock, ((hframe _).get .dispatch).trans hdispatch,
      ((hframe _).get .orders).trans horders, fun hmay => ?_, fun hu hb => ?_, ?_, ?_⟩
    · have hwalks : w.proj.state ≠ .unavailable ∨ w.account.basis = .based ∧ w.clock.running = true := by
        rw [hproj, haccount, hclock, hc]
        exact hmay.imp_right fun hb => ⟨hb, rfl⟩
      rw [walkInputs_of_touches (hframe _)]
      exact basisChange_walks w hwalks
    · rw [basisChange_dropped (hproj ▸ hu) fun hsources => ?_]
      · exact hproj
      · rw [haccount, hb] at hsources
        exact absurd hsources.1 nofun
    · rw [(hframe _).get .clock, ← hport, show (basisChange w).clock = w.clock from (basisChange_touches w).get .clock]
      exact (basisChange_onlyReplies w).answer_port _ _ _
    · exact hwritten.comp (hframe _)
  · exact settle_nothing _ true ((accepted_touches s).get .due |>.trans hd)

end

section
/-! SUPPORT. O43: what a sync pulse does, by the second it captures (R131). -/

namespace Sys2Proof.Machine

set_option Elab.async false

/-! ### The pulse (R131) -/

section
variable {s : State} {how : Schedule}

theorem pulseTaken_iff (s : State) :
    pulseTaken s = true ↔ s.clock.running = true ∧ s.limits.syncMode = .pulse := by simp [pulseTaken]

/-- R131: a clock that is UNSET, or in FREE mode, passes over a pulse. -/
theorem exec_syncPulse_ignored (hs : inReset s = false) (h : pulseTaken s = false) :
    exec (.syncPulse how) s = .next s :=
  congrArg Host.Outcome.next ((unlessHeld_taken s _ hs).trans (if_neg (by simp [h])))

theorem exec_syncPulse_taken (hs : inReset s = false) (h : pulseTaken s = true) :
    exec (.syncPulse how) s = .next (pulseNow how s) :=
  congrArg Host.Outcome.next ((unlessHeld_taken s _ hs).trans (if_pos h))

/-- R131: within 2 s of its end the interval ends. -/
theorem pulseNow_boundary (h : s.limits.lInt ≤ s.clock.s + 2) : captureOf s = .boundary ∧
    pulseNow how s = boundaryNow how (keepCapture s) := by
  have hc : captureOf s = .boundary := if_pos h
  exact ⟨hc, by rw [pulseNow, hc]⟩

/-- R131: within 2 s of its start the count restarts. -/
theorem pulseNow_restart (h : s.clock.s + 2 < s.limits.lInt) (h2 : s.clock.s ≤ 2) : captureOf s = .restart ∧
    pulseNow how s = restartCount (keepCapture s) := by
  have hc : captureOf s = .restart := (if_neg (Nat.not_le.mpr h)).trans (if_pos h2)
  exact ⟨hc, by rw [pulseNow, hc]⟩

/-- R131: between, the pulse is a slip. -/
theorem pulseNow_slip (h : s.clock.s + 2 < s.limits.lInt) (h2 : 2 < s.clock.s) : captureOf s = .slip ∧
    pulseNow how s = raise .clockSlip (keepCapture s) := by
  have hc : captureOf s = .slip := (if_neg (Nat.not_le.mpr h)).trans (if_neg (Nat.not_le.mpr h2))
  exact ⟨hc, by rw [pulseNow, hc]⟩

end

end Sys2Proof.Machine
end

section
open Sys2Proof Sys2Proof.Machine

set_option Elab.async false

/-- Settles O43: the pulse is judged once, and the capture it keeps stands in the state it goes on from. -/
theorem syncPulseActsByItsSecond : Obligations.SyncPulseActsByItsSecond := by
  intro order later s hs
  refine ⟨fun h => exec_syncPulse_ignored hs ?_, fun hrun hmode hlint => ?_⟩
  · rw [Bool.eq_false_iff, ne_eq, pulseTaken_iff]
    rintro ⟨hrun, hmode⟩
    rcases h with h | h
    · exact absurd (hrun.symm.trans h) nofun
    · exact absurd (hmode.symm.trans h) nofun
  have htaken := exec_syncPulse_taken (how := ⟨order, later⟩) hs ((pulseTaken_iff s).mpr ⟨hrun, hmode⟩)
  refine ⟨fun hend => ?_, fun hstart => ?_, fun hlo hhi => ?_⟩
  · obtain ⟨hcapture, hpulse⟩ := pulseNow_boundary (how := ⟨order, later⟩) hend
    have hboundary : exec (.boundary ⟨order, later⟩) (keepCapture s) = .next (boundaryNow ⟨order, later⟩ (keepCapture s)) :=
      congrArg Host.Outcome.next ((unlessHeld_taken (keepCapture s) _ hs).trans (if_pos hrun))
    rw [htaken, hpulse, ← hboundary, keepCapture, hcapture]
  · obtain ⟨hcapture, hpulse⟩ := pulseNow_restart (how := ⟨order, later⟩) (by omega) hstart
    rw [htaken, hpulse, keepCapture, hcapture]
    rfl
  · obtain ⟨hcapture, hpulse⟩ := pulseNow_slip (how := ⟨order, later⟩) hhi hlo
    rw [htaken, hpulse, keepCapture, hcapture]

end

section
/-! SUPPORT. O44: the quotients of the shares, rounded down, against the figure they divide (R142). -/

namespace Sys2Proof.Machine

set_option Elab.async false

/-! ### Quotients rounded down (R142) -/

/-- Quotients of n by c, each rounded down, fall short of the whole by less than c each. -/
theorem sumOver_quotients (n c : Nat) (f : TrainIx → Nat) (hc : 0 < c) (ts : List TrainIx) :
    sumOver (fun x => n * f x / c) ts * c ≤ n * sumOver f ts
      ∧ n * sumOver f ts + ts.length ≤ (sumOver (fun x => n * f x / c) ts + ts.length) * c := by
  induction ts with
  | nil => simp [sumOver]
  | cons x ts ih =>
    obtain ⟨hle, hlt⟩ := ih
    have hlow : n * f x / c * c ≤ n * f x := Nat.div_mul_le_self _ _
    have hhigh : n * f x + 1 ≤ (n * f x / c + 1) * c := by
      rw [Nat.add_mul, Nat.one_mul]
      exact Nat.lt_div_mul_add hc
    simp only [sumOver, List.map_cons, List.sum_cons, List.length_cons] at *
    constructor <;> nlinarith

section
variable (s : State) (members : List TrainIx)

/-- R142: the sum of the quotients. -/
def quotientSum : Nat := sumOver (quotient s (sumOver (tpMax s) members)) members

/-- R142: what the quotients leave of the target, which the first member is given. -/
def quotientRest : Nat := s.dispatch.target.natAbs - quotientSum s members

variable {s members}

/-- R142: the quotients never pass the target, and what they leave is less than one kW for each member. -/
theorem quotientSum_bounds (h : 0 < sumOver (tpMax s) members) :
    quotientSum s members ≤ s.dispatch.target.natAbs ∧ quotientRest s members < members.length := by
  obtain ⟨hle, hlt⟩ := sumOver_quotients s.dispatch.target.natAbs _ (tpMax s) h members
  have hmembers : 0 < members.length := by
    refine List.length_pos_iff.mpr ?_
    rintro rfl
    cases h
  have hbound : s.dispatch.target.natAbs < quotientSum s members + members.length :=
    Nat.lt_of_mul_lt_mul_right (a := sumOver (tpMax s) members)
      (Nat.lt_of_lt_of_le (Nat.lt_add_of_pos_right hmembers) hlt)
  have hsum : quotientSum s members ≤ s.dispatch.target.natAbs := Nat.le_of_mul_le_mul_right hle h
  exact ⟨hsum, by unfold quotientRest; omega⟩

/-- R142: the share of a member, before it is cut to the train's limits. -/
def uncutShare (s : State) (members : List TrainIx) (x : TrainIx) : Nat :=
  quotient s (sumOver (tpMax s) members) x + if members.head? = some x then quotientRest s members else 0

theorem shareOf_eq (x : TrainIx) : shareOf s members x =
    clampNat (paramsOf s x).tpMin (paramsOf s x).tpMax (uncutShare s members x) := by
  unfold shareOf uncutShare quotientRest quotientSum
  split <;> rfl

theorem clampNat_of_range {lo hi n : Nat} (h1 : lo ≤ n) (h2 : n ≤ hi) : clampNat lo hi n = n := by
  rw [clampNat, Nat.min_eq_right h2, Nat.max_eq_right h1]

/-- R142: only the first of the members is given the remainder. -/
theorem sumOver_uncutShare (hn : members.Nodup) (hne : members ≠ []) :
    sumOver (uncutShare s members) members = quotientSum s members + quotientRest s members := by
  obtain ⟨x, xs, rfl⟩ := List.exists_cons_of_ne_nil hne
  have hothers : ∀ y ∈ xs, uncutShare s (x :: xs) y = quotient s (sumOver (tpMax s) (x :: xs)) y := fun y hy => by
    refine congrArg (quotient s (sumOver (tpMax s) (x :: xs)) y + ·) (if_neg fun h => ?_)
    obtain rfl := Option.some.inj h
    exact (List.nodup_cons.mp hn).1 hy
  have hfirst : uncutShare s (x :: xs) x =
      quotient s (sumOver (tpMax s) (x :: xs)) x + quotientRest s (x :: xs) :=
    congrArg (quotient s (sumOver (tpMax s) (x :: xs)) x + ·) (if_pos rfl)
  have hsum : quotientSum s (x :: xs) = quotient s (sumOver (tpMax s) (x :: xs)) x
      + sumOver (quotient s (sumOver (tpMax s) (x :: xs))) xs := rfl
  have hrest : sumOver (uncutShare s (x :: xs)) xs = sumOver (quotient s (sumOver (tpMax s) (x :: xs))) xs :=
    congrArg List.sum (List.map_congr_left hothers)
  have huncut : sumOver (uncutShare s (x :: xs)) (x :: xs) =
      uncutShare s (x :: xs) x + sumOver (uncutShare s (x :: xs)) xs := rfl
  rw [huncut, hrest, hfirst, hsum, Nat.add_right_comm]

end

end Sys2Proof.Machine
end

section
open Sys2Proof Sys2Proof.Machine

set_option Elab.async false

/-- Settles O44: an uncut share is its quotient, and the first member's has the remainder besides. -/
theorem sharesSumToTarget : Obligations.SharesSumToTarget := by
  intro s members hn htotal q rest
  obtain ⟨hsum, hrest⟩ := quotientSum_bounds htotal
  refine ⟨hsum, hrest, fun huncut => ?_⟩
  have hshare : ∀ x ∈ members, shareOf s members x = uncutShare s members x := fun x hx => by
    obtain ⟨hmin, hmax⟩ := huncut x hx
    have hlow : q x ≤ uncutShare s members x := Nat.le_add_right _ _
    have hhigh : uncutShare s members x ≤ q x + rest := by
      refine Nat.add_le_add_left (m := rest) ?_ _
      split
      · exact Nat.le_refl _
      · exact Nat.zero_le _
    rw [shareOf_eq]
    exact clampNat_of_range (hmin.trans hlow) (hhigh.trans hmax)
  have hne : members ≠ [] := by
    rintro rfl
    cases htotal
  calc sumOver (shareOf s members) members = sumOver (uncutShare s members) members :=
        congrArg List.sum (List.map_congr_left hshare)
    _ = quotientSum s members + quotientRest s members := sumOver_uncutShare hn hne
    _ = s.dispatch.target.natAbs := Nat.add_sub_cancel' hsum

end

section
/-! SUPPORT. O5 and O11: the dispatcher's requests to the sequencer (R102 to R108), each by the one train record it writes; and a step of
the dispatcher that takes the trains in turn, as one train meets it. -/

namespace Sys2Proof.Machine

set_option Elab.async false

/-! ### A train record through a request -/

section
variable (p : TrainParams) (x : TrainIx) (v : Train)

/-- R102: a train's record after a start. -/
def Train.started : Train :=
  { v with state := .starting, stateTimer := startTime p v.startClass, startsToday := v.startsToday + 1 }

/-- R105: a train's record after a load. -/
def Train.loaded : Train :=
  { v with state := .running, setpoint := p.tpMin, runTime := 0, stateTimer := 0, startClass := .hot }

/-- R107: a train's record after an unload. -/
def Train.unloaded : Train := { v with state := .ready, setpoint := 0, stateTimer := p.readyMax, startClass := .hot }

/-- R108: a train's record after a stop. -/
def Train.stopped : Train :=
  { v with
    state := .stopping, stateTimer := p.stopTime, setpoint := 0, downSince := 0, startClass := .hot
    warm := decide (x.side = .discharge ∧ v.heater ≠ Heater.off) }

end

/-- R102: a start is judged on the train's state, the mode and the side's excursion. -/
abbrev Startable (s : State) (x : TrainIx) (v : Train) : Prop :=
  v.state = .idle ∧ s.mode = .normal ∧ excursionOf s.account x.side = .clear

/-- R102: a train's record after a start request; at its start limit it becomes START_LIMITED. -/
def startRequested (s : State) (x : TrainIx) (v : Train) : Train :=
  if Startable s x v then
    if s.limits.startsMax ≤ v.startsToday then { v with startLimited := true } else v.started (paramsOf s x)
  else v

section
variable {s : State} {x : TrainIx} {v : Train}

theorem startRequested_stands (h : ¬ Startable s x v) : startRequested s x v = v := if_neg h

theorem startRequested_limited (h : Startable s x v) (hl : s.limits.startsMax ≤ v.startsToday) :
    startRequested s x v = { v with startLimited := true } := (if_pos h).trans (if_pos hl)

theorem startRequested_starts (h : Startable s x v) (hl : v.startsToday < s.limits.startsMax) :
    startRequested s x v = v.started (paramsOf s x) := (if_pos h).trans (if_neg (Nat.not_le.mpr hl))

/-- A start request is judged on the limits, the mode and the account. -/
theorem startRequested_of_touches {fs : List Field} {t : State} (h : Touches fs s t) (hl : .limits ∉ fs := by decide)
    (hm : .mode ∉ fs := by decide) (ha : .account ∉ fs := by decide) : startRequested t x v = startRequested s x v := by
  unfold startRequested Startable
  rw [paramsOf_of_touches h x hl, show t.limits = s.limits from h .limits hl, show t.mode = s.mode from h .mode hm,
    show t.account = s.account from h .account ha]

theorem startRequested_setpoint : (startRequested s x v).setpoint = v.setpoint := by
  unfold startRequested; split
  · split <;> rfl
  · rfl

/-- A start request that is made again changes nothing. -/
theorem startRequested_again : startRequested s x (startRequested s x v) = startRequested s x v := by
  by_cases h : Startable s x v
  · by_cases hl : s.limits.startsMax ≤ v.startsToday
    · rw [startRequested_limited h hl]
      exact startRequested_limited (v := { v with startLimited := true }) h hl
    · rw [startRequested_starts h (Nat.not_le.mp hl)]
      exact startRequested_stands fun hs => nomatch hs.1
  · rw [startRequested_stands h, startRequested_stands h]

end

/-! ### The requests (R102 to R108) -/

section
variable {s : State} {x : TrainIx}

theorem startJudged_iff : startJudged s x = true ↔ Startable s x (s.train x) := by
  simp [startJudged, Startable, and_assoc]

theorem requestStart_stands (h : ¬ Startable s x (s.train x)) : requestStart x s = s := by
  have hjudged : startJudged s x = false := Bool.eq_false_iff.mpr fun hj => h (startJudged_iff.mp hj)
  exact if_pos (by rw [hjudged]; rfl)

section
variable (h : Startable s x (s.train x))
include h

theorem requestStart_judged {a b : State} : (if (!startJudged s x) = true then a else b) = b :=
  if_neg (by rw [startJudged_iff.mpr h]; decide)

/-- R102: a train that is START_LIMITED already is not announced again. -/
theorem requestStart_limitedAgain (hl : s.limits.startsMax ≤ (s.train x).startsToday)
    (hlimited : (s.train x).startLimited = true) : requestStart x s = s :=
  (requestStart_judged h).trans ((if_pos hl).trans (if_pos hlimited))

theorem requestStart_limited (hl : s.limits.startsMax ≤ (s.train x).startsToday)
    (hlimited : (s.train x).startLimited = false) :
    requestStart x s = raise .trainEvent (s.setTrain x { s.train x with startLimited := true }) :=
  (requestStart_judged h).trans ((if_pos hl).trans (if_neg (by rw [hlimited]; decide)))

theorem requestStart_starts (hl : (s.train x).startsToday < s.limits.startsMax) :
    requestStart x s = putTrain x ((s.train x).started (paramsOf s x)) s :=
  (requestStart_judged h).trans (if_neg (Nat.not_le.mpr hl))

end

end

section
variable (s : State) (x y : TrainIx)

theorem requestStart_train : (requestStart x s).train y =
    if y = x then startRequested s x (s.train x) else s.train y := by
  have hself : (if y = x then s.train x else s.train y) = s.train y := ite_eq_right_iff.mpr fun hy => by rw [hy]
  by_cases h : Startable s x (s.train x)
  · by_cases hl : s.limits.startsMax ≤ (s.train x).startsToday
    · rw [startRequested_limited h hl]
      cases hlimited : (s.train x).startLimited with
      | true => rw [requestStart_limitedAgain h hl hlimited, ← hlimited, hself]
      | false =>
        rw [requestStart_limited h hl hlimited]
        exact setTrain_train s x y _
    · rw [startRequested_starts h (Nat.not_le.mp hl), requestStart_starts h (Nat.not_le.mp hl)]
      exact putTrain_train s x y _
  · rw [startRequested_stands h, requestStart_stands h, hself]

/-- R102: a train that becomes START_LIMITED is announced. -/
theorem requestStart_latched {s : State} {x : TrainIx} (h : Startable s x (s.train x))
    (hl : s.limits.startsMax ≤ (s.train x).startsToday) (hn : (s.train x).startLimited = false) :
    Latched .trainEvent (requestStart x s) := by
  rw [requestStart_limited h hl hn]
  exact latched_raise _ _

theorem enterStopping_train : (enterStopping x s).train y =
    if y = x then (s.train x).stopped (paramsOf s x) x else s.train y := by
  refine (putTrain_train _ x y _).trans ?_
  simp only [classed, judgedClass, Train.stopped, Bool.decide_and]
  rfl

theorem enterStopping_store (i : StoreIx) : (enterStopping x s).store i =
    { s.store i with trains := (s.store i).trains.filter (· ≠ x) } :=
  (congrArg (fun v : Heat => v.store.get i) (putTrain_heat _ x _)).trans (releaseStore_store s x i)

section
variable {s x}

/-- R107: what an unload writes. -/
theorem requestUnload_train (h : atTpMin s x = true) : (requestUnload x s).train y =
    if y = x then (s.train x).unloaded (paramsOf s x) else s.train y := by
  rw [requestUnload, if_pos h]
  exact putTrain_train _ x y _

theorem requestUnload_store (h : atTpMin s x = true) (i : StoreIx) : (requestUnload x s).store i =
    { s.store i with trains := (s.store i).trains.filter (· ≠ x) } := by
  rw [requestUnload, if_pos h]
  exact (congrArg (fun v : Heat => v.store.get i) (putTrain_heat _ x _)).trans (releaseStore_store s x i)

theorem requestUnload_latched (h : atTpMin s x = true) : Latched .trainEvent (requestUnload x s) := by
  rw [requestUnload, if_pos h]
  exact latched_raise _ _

/-- R105: what a load writes. -/
theorem requestLoad_train (h : loadTaken s x = true) : (requestLoad x s).train y =
    if y = x then (s.train x).loaded (paramsOf s x) else s.train y := by
  rw [requestLoad, if_pos h]
  exact (congrArg (fun ts : Trains => ts.train.get y) ((assignStore_touches _ x).get .trains)).trans
    (putTrain_train s x y _)

theorem requestLoad_latched (h : loadTaken s x = true) : Latched .trainEvent (requestLoad x s) := by
  rw [requestLoad, if_pos h]
  exact latched_raise _ _

end

end

/-! ### The trains in turn (R126, R135) -/

/-- Of an operation that takes some trains in turn, each once, as one of them meets it: what it sees of the state is as before the first,
where the operation on another leaves what it sees, and as the operation on it leaves it after the last. -/
theorem eachTrain_turn {α : Type} {f : TrainIx → State → State} (hquiet : ∀ y u, Quiet u (f y u)) {sees : State → α}
    {x : TrainIx} : ∀ {xs : List TrainIx} (s : State), (∀ y ∈ xs, y ≠ x → ∀ u, sees (f y u) = sees u) → xs.Nodup → x ∈ xs →
      ∃ u, Quiet s u ∧ sees u = sees s ∧ Quiet (f x u) (eachTrain f xs s)
        ∧ ∀ {β : Type} (figure : State → β), (∀ y ∈ xs, y ≠ x → ∀ w, figure (f y w) = figure w) →
          figure (eachTrain f xs s) = figure (f x u)
  | [], _, _, _, hx => nomatch hx
  | y :: xs, s, hsees, hn, hx => by
    obtain ⟨hy, hxs⟩ := List.nodup_cons.mp hn
    have hrest : ∀ z ∈ xs, z ≠ x → ∀ u, sees (f z u) = sees u := fun z hz => hsees z (List.mem_cons_of_mem _ hz)
    rw [eachTrain_cons]
    by_cases hxy : y = x
    · subst hxy
      refine ⟨s, .refl s, rfl, eachTrain_quiet _ f hquiet xs, fun figure hfigure => ?_⟩
      refine List.foldlRecOn (motive := fun w => figure w = figure (f y s)) xs (fun u z => f z u) rfl fun w hw z hz => ?_
      exact (hfigure z (List.mem_cons_of_mem _ hz) (fun h => hy (h ▸ hz)) w).trans hw
    · obtain ⟨u, hu, hsame, hlast, hend⟩ :=
        eachTrain_turn hquiet (f y s) hrest hxs ((List.mem_cons.mp hx).resolve_left fun h => hxy h.symm)
      refine ⟨u, (hquiet y s).trans hu, hsame.trans (hsees y List.mem_cons_self hxy s), hlast, fun figure hfigure => ?_⟩
      exact hend figure fun z hz => hfigure z (List.mem_cons_of_mem _ hz)

/-- What none of the operations moves stands. -/
theorem eachTrain_stands {α : Type} {f : TrainIx → State → State} {figure : State → α} {xs : List TrainIx}
    (h : ∀ y ∈ xs, ∀ u, figure (f y u) = figure u) (s : State) : figure (eachTrain f xs s) = figure s :=
  List.foldlRecOn (motive := fun w => figure w = figure s) xs (fun u z => f z u) rfl fun w hw z hz => (h z hz w).trans hw

end Sys2Proof.Machine
end

section
/-! SUPPORT. O5 and O11: step 3 of the dispatcher's response, on each train, its hold mark and its store (R139). -/

namespace Sys2Proof.Machine

set_option Elab.async false

/-! ### What step 3 does with one train (R139) -/

/-- R107, R108: of the trains released one that has not run for MIN_RUN is unloaded and held, and every other is stopped. -/
def Train.heldShort (p : TrainParams) (v : Train) : Bool := decide (v.state = .running ∧ v.runTime < p.minRun)

/-- R107, R108: the record of a train that is released. -/
def Train.released (p : TrainParams) (x : TrainIx) (v : Train) : Train :=
  if v.heldShort p then v.unloaded p else v.stopped p x

/-- R139: step 3 releases a RUNNING train that is no member and stands at TP_MIN, and a READY one that is neither member nor needed nor
held. -/
def releases (s : State) (x : TrainIx) : Bool :=
  decide (x ∉ s.dispatch.commit ∧
    ((s.train x).state = .running ∧ (s.train x).setpoint = (paramsOf s x).tpMin
      ∨ (s.train x).state = .ready ∧ x ∉ s.dispatch.need ∧ s.dispatch.hold.get x = false))

section
variable {p : TrainParams} {x : TrainIx} {v : Train}

theorem Train.heldShort_iff : v.heldShort p = true ↔ v.state = .running ∧ v.runTime < p.minRun := decide_eq_true_iff

theorem Train.released_unloaded (h : v.heldShort p = true) : v.released p x = v.unloaded p := if_pos h

theorem Train.released_stopped (h : v.heldShort p = false) : v.released p x = v.stopped p x := if_neg (by simp [h])

theorem Train.released_setpoint : (v.released p x).setpoint = 0 := by unfold Train.released; split <;> rfl

/-- A train that is released is READY where it has not run long enough, and no longer RUNNING. -/
theorem Train.released_ready : decide ((v.released p x).state = .ready) = v.heldShort p := by
  cases h : v.heldShort p
  · rw [Train.released_stopped h]; rfl
  · rw [Train.released_unloaded h]; rfl

end

section
variable {s : State} {x : TrainIx}

theorem releases_iff : releases s x = true ↔ x ∉ s.dispatch.commit ∧
    ((s.train x).state = .running ∧ (s.train x).setpoint = (paramsOf s x).tpMin
      ∨ (s.train x).state = .ready ∧ x ∉ s.dispatch.need ∧ s.dispatch.hold.get x = false) := decide_eq_true_iff

theorem releaseTrain_stands (h : releases s x = false) : releaseTrain x s = s := by
  rw [Bool.eq_false_iff, ne_eq, releases_iff, not_and] at h
  cases hst : (s.train x).state with
  | running =>
    have hstay : s.dispatch.commit.contains x || !atTpMin s x := by
      by_contra hn
      simp only [Bool.or_eq_true, not_or, List.contains_iff_mem, Bool.not_eq_true', Bool.not_eq_false] at hn
      exact h hn.1 (.inl ⟨hst, by simpa [atTpMin, hst] using hn.2⟩)
    simp only [releaseTrain, hst, hstay, if_true]
  | ready =>
    have hstay : s.dispatch.commit.contains x || s.dispatch.need.contains x || s.dispatch.hold.get x := by
      by_contra hn
      simp only [Bool.or_eq_true, not_or, List.contains_iff_mem, Bool.not_eq_true, and_assoc] at hn
      exact h hn.1 (.inr ⟨hst, hn.2⟩)
    simp only [releaseTrain, hst, hstay, if_true]
  | _ => simp only [releaseTrain, hst]

section
variable (h : releases s x = true)
include h

theorem atTpMin_of_releases (hrun : (s.train x).state = .running) : atTpMin s x = true := by
  have hmin : (s.train x).setpoint = (paramsOf s x).tpMin := by
    rcases (releases_iff.mp h).2 with ⟨-, hmin⟩ | ⟨hready, -⟩
    · exact hmin
    · exact absurd (hrun.symm.trans hready) nofun
  simp [atTpMin, hrun, hmin]

/-- R139: a RUNNING train that is released is stopped, or else unloaded. -/
theorem releaseTrain_running (hrun : (s.train x).state = .running) : releaseTrain x s = stopOrUnload x s := by
  have hleave : (s.dispatch.commit.contains x || !atTpMin s x) = false := by
    simpa [atTpMin_of_releases h hrun] using (releases_iff.mp h).1
  simp only [releaseTrain, hrun, hleave]
  rfl

theorem releaseTrain_stops (hn : (s.train x).heldShort (paramsOf s x) = false) : releaseTrain x s = enterStopping x s := by
  have htaken : stopTaken s x = true → requestStop x s = enterStopping x s := fun ht => if_pos ht
  rcases (releases_iff.mp h).2 with ⟨hrun, hmin⟩ | ⟨hready, hneed, hhold⟩
  · have hstop : requestStop x s = enterStopping x s := htaken (by
      have hlong : (paramsOf s x).minRun ≤ (s.train x).runTime :=
        Nat.not_lt.mp fun hlt => absurd (hn.symm.trans (Train.heldShort_iff.mpr ⟨hrun, hlt⟩)) nofun
      simp [stopTaken, atTpMin_of_releases h hrun, hlong])
    have hdown : ((requestStop x s).train x).state ≠ .running := by
      rw [hstop, enterStopping_train, if_pos rfl]
      exact nofun
    rw [releaseTrain_running h hrun, ← hstop]
    exact if_pos hdown
  · have hleave : (s.dispatch.commit.contains x || s.dispatch.need.contains x || s.dispatch.hold.get x) = false := by
      simp [(releases_iff.mp h).1, hneed, hhold]
    rw [← htaken (by simp [stopTaken, hready])]
    simp only [releaseTrain, hready, hleave]
    rfl

theorem releaseTrain_unloads (hshort : (s.train x).heldShort (paramsOf s x) = true) :
    releaseTrain x s = setHold x true (requestUnload x s) := by
  obtain ⟨hrun, hrunTime⟩ := Train.heldShort_iff.mp hshort
  have hmin := atTpMin_of_releases h hrun
  have hstop : requestStop x s = s := if_neg (by simp [stopTaken, hrun, Nat.not_le.mpr hrunTime])
  have hready : ((requestUnload x s).train x).state = .ready := by
    rw [requestUnload_train _ hmin, if_pos rfl]
    rfl
  rw [releaseTrain_running h hrun]
  unfold stopOrUnload; dsimp only
  rw [hstop, if_neg (by simp [hrun]), if_pos hready]

end

end

section
variable (s : State) (x y : TrainIx)

/-- R139: what step 3 makes of the train records. -/
theorem releaseTrain_train : (releaseTrain x s).train y =
    if y = x then if releases s x then (s.train x).released (paramsOf s x) x else s.train x else s.train y := by
  cases h : releases s x with
  | false =>
    have hself : (if y = x then s.train x else s.train y) = s.train y := ite_eq_right_iff.mpr fun hy => by rw [hy]
    rw [releaseTrain_stands h]
    exact hself.symm
  | true =>
    cases hshort : (s.train x).heldShort (paramsOf s x) with
    | true =>
      rw [releaseTrain_unloads h hshort, Train.released_unloaded hshort]
      exact requestUnload_train y (atTpMin_of_releases h (Train.heldShort_iff.mp hshort).1)
    | false =>
      rw [releaseTrain_stops h hshort, Train.released_stopped hshort]
      exact enterStopping_train s x y

/-- R139: a train that step 3 releases leaves its store. -/
theorem releaseTrain_store (i : StoreIx) : (releaseTrain x s).store i =
    { s.store i with trains := (s.store i).trains.filter fun y => !(decide (y = x) && releases s x) } := by
  cases h : releases s x with
  | false => simp [releaseTrain_stands h]
  | true =>
    have hfilter : (fun y => !(decide (y = x) && true)) = fun y => decide (y ≠ x) := by funext y; simp
    rw [hfilter]
    cases hshort : (s.train x).heldShort (paramsOf s x) with
    | true =>
      rw [releaseTrain_unloads h hshort]
      exact requestUnload_store (atTpMin_of_releases h (Train.heldShort_iff.mp hshort).1) i
    | false =>
      rw [releaseTrain_stops h hshort]
      exact enterStopping_store s x i

/-- R139: of the dispatcher's record step 3 sets the hold mark of a train that it unloads. -/
theorem releaseTrain_dispatch : (releaseTrain x s).dispatch =
    { s.dispatch with
      hold := if releases s x && (s.train x).heldShort (paramsOf s x) then s.dispatch.hold.set x true
        else s.dispatch.hold } := by
  cases h : releases s x with
  | false => rw [releaseTrain_stands h]; rfl
  | true =>
    cases hshort : (s.train x).heldShort (paramsOf s x) with
    | true =>
      have hd : (requestUnload x s).dispatch = s.dispatch := (requestUnload_touches s x).get .dispatch
      rw [releaseTrain_unloads h hshort, setHold, State.withDispatch_dispatch, hd]
      rfl
    | false =>
      rw [releaseTrain_stops h hshort]
      exact (enterStopping_touches s x).get .dispatch

theorem releaseTrain_latched {s : State} {x : TrainIx} (h : releases s x = true)
    (hshort : (s.train x).heldShort (paramsOf s x) = true) : Latched .trainEvent (releaseTrain x s) := by
  rw [releaseTrain_unloads h hshort]
  exact (setHold_quiet _ x true).port.2 _
    (requestUnload_latched (atTpMin_of_releases h (Train.heldShort_iff.mp hshort).1))

/-! ### Step 3 (R139) -/

/-- R139: what step 3 sees of the train x: its record, and what the dispatcher's record says of it. -/
def releaseSight (s : State) : Train × List TrainIx × List TrainIx × Bool :=
  (s.train x, s.dispatch.commit, s.dispatch.need, s.dispatch.hold.get x)

theorem releaseSight_eq_iff (t : State) : releaseSight x t = releaseSight x s ↔ t.train x = s.train x
    ∧ t.dispatch.commit = s.dispatch.commit ∧ t.dispatch.need = s.dispatch.need
    ∧ t.dispatch.hold.get x = s.dispatch.hold.get x := by simp [releaseSight]

theorem releaseTrain_unseen {y : TrainIx} (hy : y ≠ x) : releaseSight x (releaseTrain y s) = releaseSight x s := by
  refine (releaseSight_eq_iff s x _).mpr ⟨(releaseTrain_train s y x).trans (if_neg (Ne.symm hy)), ?_⟩
  rw [releaseTrain_dispatch]
  refine ⟨rfl, rfl, ?_⟩
  dsimp only
  split
  · rw [PerTrain.get_set, if_neg (Ne.symm hy)]
  · rfl

variable {s x} in
theorem releases_of_sight {t : State} (hp : paramsOf t x = paramsOf s x) (h : releaseSight x t = releaseSight x s) :
    releases t x = releases s x := by
  obtain ⟨htrain, hcommit, hneed, hhold⟩ := (releaseSight_eq_iff s x t).mp h
  rw [releases, releases, hp, htrain, hcommit, hneed, hhold]

/-- R139: step 3 as the train x meets it. -/
theorem releaseUnwanted_turn : ∃ u, Quiet s u ∧ releaseSight x u = releaseSight x s
    ∧ Quiet (releaseTrain x u) (releaseUnwanted s)
    ∧ releaseSight x (eachTrain releaseTrain TrainIx.all s) = releaseSight x (releaseTrain x u) := by
  obtain ⟨u, hu, hsight, hlast, hend⟩ := eachTrain_turn (fun y w => releaseTrain_quiet w y) (sees := releaseSight x) s
    (fun y _ hy w => releaseTrain_unseen w x hy) TrainIx.all_nodup (TrainIx.mem_all x)
  exact ⟨u, hu, hsight, hlast.trans (clearHolds_quiet _), hend _ fun y _ hy w => releaseTrain_unseen w x hy⟩

/-- R139: the record of a train, and what the dispatcher's record says of it, after step 3. -/
theorem releaseUnwanted_sight : releaseSight x (releaseUnwanted s) =
    (if releases s x then (s.train x).released (paramsOf s x) x else s.train x, s.dispatch.commit, s.dispatch.need,
      if releases s x then (s.train x).heldShort (paramsOf s x)
      else s.dispatch.hold.get x && decide ((s.train x).state = .ready)) := by
  obtain ⟨u, hu, hsight, -, hend⟩ := releaseUnwanted_turn s x
  have hp : paramsOf u x = paramsOf s x := paramsOf_of_touches hu.touches x
  have hreleases := releases_of_sight hp hsight
  obtain ⟨htrain, hcommit, hneed, hhold⟩ := (releaseSight_eq_iff s x u).mp hsight
  have hcleared : releaseSight x (releaseUnwanted s) =
      (let w := releaseSight x (eachTrain releaseTrain TrainIx.all s)
       (w.1, w.2.1, w.2.2.1, w.2.2.2 && decide (w.1.state = .ready))) := by
    simp only [releaseSight, releaseUnwanted, clearHolds, State.withDispatch_dispatch, PerTrain.get_ofFn]
    rfl
  have hrecord : (releaseTrain x u).train x =
      if releases s x then (s.train x).released (paramsOf s x) x else s.train x := by
    rw [releaseTrain_train, if_pos rfl, hreleases, htrain, hp]
  rw [hcleared, hend, releaseSight, hrecord, releaseTrain_dispatch, hreleases, htrain, hp, hcommit, hneed]
  cases releases s x with
  | false => simp [hhold]
  | true => cases hshort : (s.train x).heldShort (paramsOf s x) <;> simp [Train.released_ready, hshort]

theorem releaseUnwanted_train : (releaseUnwanted s).train x =
    if releases s x then (s.train x).released (paramsOf s x) x else s.train x :=
  congrArg (·.1) (releaseUnwanted_sight s x)

theorem releaseUnwanted_commit : (releaseUnwanted s).dispatch.commit = s.dispatch.commit :=
  congrArg (·.2.1) (releaseUnwanted_sight s .c0)

theorem releaseUnwanted_hold : (releaseUnwanted s).dispatch.hold.get x =
    if releases s x then (s.train x).heldShort (paramsOf s x)
    else s.dispatch.hold.get x && decide ((s.train x).state = .ready) :=
  congrArg (·.2.2.2) (releaseUnwanted_sight s x)

/-- R107: the train that step 3 unloads is announced. -/
theorem releaseUnwanted_latched {s : State} {x : TrainIx} (h : releases s x = true)
    (hshort : (s.train x).heldShort (paramsOf s x) = true) : Latched .trainEvent (releaseUnwanted s) := by
  obtain ⟨u, hu, hsight, hlast, -⟩ := releaseUnwanted_turn s x
  have hp : paramsOf u x = paramsOf s x := paramsOf_of_touches hu.touches x
  have htrain : u.train x = s.train x := congrArg (·.1) hsight
  exact hlast.port.2 _ (releaseTrain_latched ((releases_of_sight hp hsight).trans h) (by rwa [hp, htrain]))

/-- R139: of some trains taken in turn, those that step 3 releases leave their stores. -/
theorem eachTrain_releaseTrain_store (i : StoreIx) : ∀ (xs : List TrainIx) (u : State), xs.Nodup →
    (∀ x ∈ xs, releaseSight x u = releaseSight x s ∧ paramsOf u x = paramsOf s x) →
      (eachTrain releaseTrain xs u).store i =
        { u.store i with trains := (u.store i).trains.filter fun y => !(decide (y ∈ xs) && releases s y) }
  | [], u, _, _ => by simp [eachTrain]
  | x :: xs, u, hn, hsight => by
    obtain ⟨hx, hxs⟩ := List.nodup_cons.mp hn
    obtain ⟨hsame, hp⟩ := hsight x List.mem_cons_self
    have hlater : ∀ z ∈ xs, releaseSight z (releaseTrain x u) = releaseSight z s
        ∧ paramsOf (releaseTrain x u) z = paramsOf s z := fun z hz => by
      obtain ⟨hsame, hp⟩ := hsight z (List.mem_cons_of_mem _ hz)
      exact ⟨(releaseTrain_unseen u z fun h : x = z => hx (h ▸ hz)).trans hsame,
        (paramsOf_of_touches (releaseTrain_quiet u x).touches z).trans hp⟩
    rw [eachTrain_cons, eachTrain_releaseTrain_store i xs _ hxs hlater, releaseTrain_store, releases_of_sight hp hsame]
    simp only [List.filter_filter]
    refine congrArg (fun l => { u.store i with trains := l }) (List.filter_congr fun y _ => ?_)
    by_cases hy : y = x
    · subst hy; simp [hx]
    · simp [hy]

/-- R139: every train that step 3 releases leaves its store. -/
theorem releaseUnwanted_store (i : StoreIx) : (releaseUnwanted s).store i =
    { s.store i with trains := (s.store i).trains.filter fun y => !releases s y } := by
  refine (eachTrain_releaseTrain_store s i TrainIx.all s TrainIx.all_nodup fun _ _ => ⟨rfl, rfl⟩).trans ?_
  simp only [TrainIx.mem_all, decide_true, Bool.true_and]

end

end Sys2Proof.Machine
end

section
/-! SUPPORT. O5 and O11: the trains that serve a power (R138, R141), and step 4 of the dispatcher's response, on each train and its store
(R140). -/

namespace Sys2Proof.Machine

set_option Elab.async false

/-! ### The trains that serve a power (R138, R141) -/

section
variable (s : State)

theorem byRank_perm (rank : TrainIx → Nat) (ts : List TrainIx) : (byRank rank ts).Perm ts := List.perm_insertionSort _ _

theorem leadingTrains_shortestRun (d : Side) (kw : Nat) : ShortestRun s d kw (leadingTrains s d kw) :=
  shortestRun_leading _ _ _

/-- R138: a run of the side's trains is of available ones, each once. -/
theorem ShortestRun.trains {s : State} {d : Side} {kw : Nat} {ts : List TrainIx} (h : ShortestRun s d kw ts) :
    ts.Nodup ∧ ∀ x ∈ ts, x.side = d ∧ availableNow s x = true := by
  obtain ⟨k, -, rfl, -⟩ := h
  have hperm := byRank_perm (fun x => (s.train x).rank) (d.trains.filter (availableNow s))
  have hsub := List.take_sublist k (byRank (fun x => (s.train x).rank) (d.trains.filter (availableNow s)))
  refine ⟨(hperm.nodup_iff.mpr ((Side.trains_nodup d).filter _)).sublist hsub, fun x hx => ?_⟩
  simpa using hperm.mem_iff.mp (hsub.subset hx)

/-- R138, R141: of a list the leading run that carries a power is one. -/
theorem LeadingRun.unique {cap : TrainIx → Nat} {ranked : List TrainIx} {kw : Nat} {ts us : List TrainIx}
    (h : LeadingRun cap ranked kw ts) (g : LeadingRun cap ranked kw us) : ts = us := by
  have hle : ∀ {k l : Nat}, k ≤ ranked.length → l ≤ ranked.length →
      (kw ≤ sumOver cap (ranked.take k) ∨ ranked.take k = ranked) →
        (∀ j, j < l → sumOver cap (ranked.take j) < kw) → l ≤ k := fun {k l} hk hl hsum hless => by
    by_contra hlt
    rcases hsum with hsum | hall
    · exact absurd (hless k (Nat.not_le.mp hlt)) (Nat.not_lt.mpr hsum)
    · have hlength := congrArg List.length hall
      rw [List.length_take] at hlength
      omega
  obtain ⟨k, hk, rfl, hsum, hless⟩ := h
  obtain ⟨l, hl, rfl, gsum, gless⟩ := g
  rw [Nat.le_antisymm (hle hl hk gsum hless) (hle hk hl hsum gless)]

theorem trainsFor_of_side {net : Int} {d : Side} (h : sideOf net = some d) :
    trainsFor s net = leadingTrains s d net.natAbs := by simp only [trainsFor, h]

theorem trainsFor_zero : trainsFor s 0 = [] := rfl

theorem trainsFor_nodup (net : Int) : (trainsFor s net).Nodup := by
  unfold trainsFor; split
  · exact List.nodup_nil
  · exact (leadingTrains_shortestRun s _ _).trains.1

variable {s} in
/-- R138: a train that serves a power is of the power's side, and available. -/
theorem of_mem_trainsFor {net : Int} {x : TrainIx} (h : x ∈ trainsFor s net) :
    sideOf net = some x.side ∧ availableNow s x = true := by
  unfold trainsFor at h
  split at h
  · cases h
  next d hd =>
    obtain ⟨hside, havailable⟩ := (leadingTrains_shortestRun s d _).trains.2 x h
    exact ⟨by rw [hd, hside], havailable⟩

/-- R138: what makes a train available. -/
theorem availableNow_iff (x : TrainIx) : availableNow s x = true ↔
    ((s.train x).state = .idle ∨ (s.train x).state = .starting ∨ (s.train x).state = .ready ∨ (s.train x).state = .running)
      ∧ (s.train x).startLimited = false ∧ excursionOf s.account x.side = .clear := by
  cases h : (s.train x).state <;> simp [availableNow, h]

end

/-! ### What step 4 does with one train (R140) -/

section
variable {s : State} {x : TrainIx}

theorem loadTaken_iff : loadTaken s x = true ↔
    (s.train x).state = .ready ∧ s.mode ≠ .safe ∧ sideAtZero s x.side.other = true := by
  simp [loadTaken, and_assoc]

theorem not_startable_of_loadTaken (h : loadTaken s x = true) : ¬ Startable s x (s.train x) := fun hs =>
  absurd (hs.1.symm.trans (loadTaken_iff.mp h).1) nofun

/-- R140: a member that may be loaded is loaded. -/
theorem startOrLoad_loads (h : loadTaken s x = true) : startOrLoad x s = requestLoad x s := by
  obtain ⟨hready, -, hside⟩ := loadTaken_iff.mp h
  simp only [startOrLoad, hready, hside, if_true]

/-- R140: of every other member a start is requested, which is taken of an IDLE one in NORMAL. -/
theorem startOrLoad_starts (h : loadTaken s x = false) : startOrLoad x s = requestStart x s := by
  by_cases hs : Startable s x (s.train x)
  · simp only [startOrLoad, hs.1, hs.2.1, if_true]
  · rw [requestStart_stands hs]
    unfold startOrLoad; split
    · split
      next hmode => exact requestStart_stands hs
      · rfl
    · split
      · exact if_neg (by rw [h]; decide)
      · rfl
    all_goals rfl

end

section
variable (s : State) (x y : TrainIx)

/-- R140: a train's record after step 4 has taken it. -/
def enlisted : Train :=
  if loadTaken s x then (s.train x).loaded (paramsOf s x) else startRequested s x (s.train x)

theorem startOrLoad_train : (startOrLoad x s).train y = if y = x then enlisted s x else s.train y := by
  cases h : loadTaken s x with
  | true =>
    rw [startOrLoad_loads h, enlisted, h]
    exact requestLoad_train y h
  | false =>
    rw [startOrLoad_starts h, enlisted, h]
    exact requestStart_train s x y

theorem startOrLoad_frame : Touches trainFields s (startOrLoad x s) := by
  cases h : loadTaken s x with
  | true => rw [startOrLoad_loads h]; exact requestLoad_touches s x
  | false => rw [startOrLoad_starts h]; exact (requestStart_touches s x).mono (by decide)

/-- R102, R105: a member that is loaded, or becomes START_LIMITED, is announced. -/
theorem startOrLoad_latched {s : State} {x : TrainIx} (h : loadTaken s x = true ∨ Startable s x (s.train x)
      ∧ s.limits.startsMax ≤ (s.train x).startsToday ∧ (s.train x).startLimited = false) :
    Latched .trainEvent (startOrLoad x s) := by
  rcases h with h | ⟨hs, hlimit, hl⟩
  · rw [startOrLoad_loads h]
    exact requestLoad_latched h
  · rw [startOrLoad_starts (Bool.eq_false_iff.mpr fun h => not_startable_of_loadTaken h hs)]
    exact requestStart_latched hs hlimit hl

/-! ### Step 4 (R140) -/

/-- R140: what step 4 sees of the train x: its record, and whether the other side is at 0 kW. -/
def loadSight (s : State) : Train × Bool := (s.train x, sideAtZero s x.side.other)

theorem startOrLoad_unseen {x y : TrainIx} (hy : y ≠ x) (hside : y.side = x.side) :
    loadSight x (startOrLoad y s) = loadSight x s := by
  have hother : ∀ z : TrainIx, z.side = x.side.other → (startOrLoad y s).train z = s.train z := fun z hz =>
    (startOrLoad_train s y z).trans (if_neg fun h => Side.ne_other x.side (hside.symm.trans ((congrArg TrainIx.side h).symm.trans hz)))
  have hzero : sideAtZero (startOrLoad y s) x.side.other = sideAtZero s x.side.other := by
    rw [Bool.eq_iff_iff, sideAtZero_iff, sideAtZero_iff]
    exact forall₂_congr fun z hz => by rw [hother z hz]
  rw [loadSight, loadSight, hzero, startOrLoad_train, if_neg (Ne.symm hy)]

section
variable {s x} {t : State} (hq : Quiet s t) (h : loadSight x t = loadSight x s)
include hq h

theorem loadTaken_of_sight : loadTaken t x = loadTaken s x := by
  obtain ⟨htrain, hside⟩ := Prod.mk.inj h
  rw [loadTaken, loadTaken, htrain, hside, show t.mode = s.mode from hq.touches.get .mode]

theorem enlisted_of_sight : enlisted t x = enlisted s x := by
  rw [enlisted, enlisted, loadTaken_of_sight hq h, show t.train x = s.train x from congrArg (·.1) h,
    paramsOf_of_touches hq.touches, startRequested_of_touches hq.touches]

end

section
variable {s} {d : Side} {xs : List TrainIx} (hn : xs.Nodup) (hside : ∀ y ∈ xs, y.side = d)
include hn hside

/-- R140: step 4 as one of the members meets it. -/
theorem eachTrain_startOrLoad_turn {x : TrainIx} (hx : x ∈ xs) : ∃ u, Quiet s u ∧ loadSight x u = loadSight x s
    ∧ Quiet (startOrLoad x u) (eachTrain startOrLoad xs s)
    ∧ (eachTrain startOrLoad xs s).train x = (startOrLoad x u).train x := by
  have hd : ∀ y ∈ xs, y.side = x.side := fun y hy => (hside y hy).trans (hside x hx).symm
  obtain ⟨u, hu, hsight, hlast, hend⟩ := eachTrain_turn (fun y w => startOrLoad_quiet w y) (sees := loadSight x) s
    (fun y hy hyx w => startOrLoad_unseen w hyx (hd y hy)) hn hx
  exact ⟨u, hu, hsight, hlast, hend (fun w => w.train x) fun y _ hyx w => (startOrLoad_train w y x).trans (if_neg (Ne.symm hyx))⟩

/-- R140: the records after step 4. -/
theorem eachTrain_startOrLoad_train (x : TrainIx) :
    (eachTrain startOrLoad xs s).train x = if x ∈ xs then enlisted s x else s.train x := by
  split
  next hx =>
    obtain ⟨u, hu, hsight, -, hend⟩ := eachTrain_startOrLoad_turn hn hside hx
    rw [hend, startOrLoad_train, if_pos rfl, enlisted_of_sight hu hsight]
  next hx =>
    refine eachTrain_stands (figure := fun w => w.train x) (fun y hy w => ?_) s
    exact (startOrLoad_train w y x).trans (if_neg fun heq : x = y => hx (heq ▸ hy))

theorem eachTrain_startOrLoad_latched {x : TrainIx} (hx : x ∈ xs) (h : loadTaken s x = true ∨ Startable s x (s.train x)
      ∧ s.limits.startsMax ≤ (s.train x).startsToday ∧ (s.train x).startLimited = false) :
    Latched .trainEvent (eachTrain startOrLoad xs s) := by
  obtain ⟨u, hu, hsight, hlast, -⟩ := eachTrain_startOrLoad_turn hn hside hx
  have htrain : u.train x = s.train x := congrArg (·.1) hsight
  refine hlast.port.2 _ (startOrLoad_latched ?_)
  rw [loadTaken_of_sight hu hsight, htrain, Startable, show u.mode = s.mode from hu.touches.get .mode,
    show u.account = s.account from hu.touches.get .account, show u.limits = s.limits from hu.touches.get .limits]
  exact h

end

/-! ### The stores of step 4 (R31, R140) -/

/-- R31: which store a train is given is read of the stores and the limits. -/
theorem assignStore_withHeat {s w : State} (x : TrainIx) (hl : w.limits = s.limits) :
    assignStore x (s.withHeat w.heat) = s.withHeat (assignStore x w).heat := by
  have hchoice : chooseStore (s.withHeat w.heat) x.side = chooseStore w x.side := by
    have hfigure : storeFigure (s.withHeat w.heat) x.side = storeFigure w x.side := by
      funext i
      simp only [storeFigure, roomKj, capacityKj, capacityMj, hl, State.withHeat_limits]
      rfl
    rw [chooseStore, hfigure]
    rfl
  unfold assignStore
  rw [hchoice]
  split <;> rfl

theorem startOrLoad_heat_loads {s : State} {x : TrainIx} (h : loadTaken s x = true) : ∃ w, w.heat = s.heat
    ∧ w.limits = s.limits ∧ (startOrLoad x s).heat = (assignStore x w).heat := by
  rw [startOrLoad_loads h, requestLoad, if_pos h]
  exact ⟨_, putTrain_heat s x _, (putTrain_touches s x _).get .limits, rfl⟩

theorem startOrLoad_heat_starts {s : State} {x : TrainIx} (h : loadTaken s x = false) :
    (startOrLoad x s).heat = s.heat := by
  rw [startOrLoad_starts h]
  exact (requestStart_touches s x).get .heat

/-- R31, R140: the members that are loaded are given their stores one after another. -/
theorem eachTrain_startOrLoad_placed (s : State) {d : Side} {loads : TrainIx → Bool} : ∀ (xs : List TrainIx) (u : State), xs.Nodup →
    (∀ y ∈ xs, y.side = d ∧ loadTaken u y = loads y) → u.limits = s.limits →
      Through Placed (xs.filter loads) (s.withHeat u.heat) (s.withHeat (eachTrain startOrLoad xs u).heat)
  | [], _, _, _, _ => rfl
  | x :: xs, u, hn, hmembers, hlimits => by
    obtain ⟨hx, hxs⟩ := List.nodup_cons.mp hn
    obtain ⟨hside, htaken⟩ := hmembers x List.mem_cons_self
    have hq : Quiet u (startOrLoad x u) := startOrLoad_quiet u x
    have hlater : ∀ y ∈ xs, y.side = d ∧ loadTaken (startOrLoad x u) y = loads y := fun y hy => by
      obtain ⟨hyside, hytaken⟩ := hmembers y (List.mem_cons_of_mem _ hy)
      exact ⟨hyside, (loadTaken_of_sight hq (startOrLoad_unseen u (fun h : x = y => hx (h ▸ hy))
        (hside.trans hyside.symm))).trans hytaken⟩
    have hrest := eachTrain_startOrLoad_placed s xs (startOrLoad x u) hxs hlater
      ((hq.touches.get .limits).trans hlimits)
    rw [eachTrain_cons]
    cases hloads : loads x with
    | true =>
      obtain ⟨w, hheat, hwlimits, hgiven⟩ := startOrLoad_heat_loads (htaken.trans hloads)
      rw [List.filter_cons_of_pos hloads]
      refine ⟨_, ?_, hrest⟩
      rw [hgiven, ← assignStore_withHeat x (hwlimits.trans hlimits), hheat]
      exact assignStore_placed x _
    | false =>
      rw [List.filter_cons_of_neg (by rw [hloads]; decide)]
      rw [startOrLoad_heat_starts (htaken.trans hloads)] at hrest
      exact hrest

end

end Sys2Proof.Machine
end

section
/-! SUPPORT. O5 and O11: step 5 of the dispatcher's response, the look-ahead (R141): which trains the rows ahead need, and which IDLE ones
are started for them. -/

namespace Sys2Proof.Machine

set_option Elab.async false

/-! ### States with the same trains to choose from (R138, R141) -/

/-- From s to t the trains available, their ranks and the limits stand. -/
structure SameFleet (s t : State) : Prop where
  available : ∀ x, availableNow t x = availableNow s x
  rank : ∀ x, (t.train x).rank = (s.train x).rank
  limits : t.limits = s.limits

namespace SameFleet

theorem refl (s : State) : SameFleet s s := ⟨fun _ => rfl, fun _ => rfl, rfl⟩

section
variable {s t u : State} (h : SameFleet s t)
include h

theorem trans (k : SameFleet t u) : SameFleet s u :=
  ⟨fun x => (k.available x).trans (h.available x), fun x => (k.rank x).trans (h.rank x), k.limits.trans h.limits⟩

theorem shortestRun_iff (d : Side) (kw : Nat) (ts : List TrainIx) : ShortestRun t d kw ts ↔ ShortestRun s d kw ts := by
  have hcap : tpMax t = tpMax s := by funext x; rw [tpMax, h.limits, tpMax]
  rw [ShortestRun, ShortestRun, hcap, funext h.available, show (fun x => (t.train x).rank) = _ from funext h.rank]

theorem leadingTrains (d : Side) (kw : Nat) : leadingTrains t d kw = leadingTrains s d kw :=
  LeadingRun.unique ((h.shortestRun_iff d kw _).mp (leadingTrains_shortestRun t d kw)) (leadingTrains_shortestRun s d kw)

theorem trainsFor (net : Int) : trainsFor t net = trainsFor s net := by
  unfold Machine.trainsFor; split
  · rfl
  · exact h.leadingTrains _ _

end

/-- What leaves the account and the limits, and of each train the record or one that is as available and as ranked. -/
theorem of_trains {fs : List Field} {s t : State} (h : Touches fs s t)
    (hx : ∀ x, t.train x = s.train x ∨ (t.train x).rank = (s.train x).rank
      ∧ (t.train x).startLimited = (s.train x).startLimited ∧ (t.train x).state ∈ [.idle, .starting, .ready, .running]
      ∧ (s.train x).state ∈ [.idle, .starting, .ready, .running])
    (hl : .limits ∉ fs := by decide) (ha : .account ∉ fs := by decide) : SameFleet s t where
  available x := by
    rw [Bool.eq_iff_iff, availableNow_iff, availableNow_iff, show t.account = s.account from h .account ha]
    rcases hx x with heq | ⟨-, hlimited, ht, hs⟩
    · rw [heq]
    · simp only [List.mem_cons, List.not_mem_nil, or_false] at ht hs
      simp only [ht, hs, hlimited]
  rank x := by
    rcases hx x with heq | ⟨hrank, -⟩
    · rw [heq]
    · exact hrank
  limits := h .limits hl

theorem of_touches {fs : List Field} {s t : State} (h : Touches fs s t) (ht : .trains ∉ fs := by decide)
    (hl : .limits ∉ fs := by decide) (ha : .account ∉ fs := by decide) : SameFleet s t :=
  of_trains h (fun x => .inl (congrArg (fun ts : Trains => ts.train.get x) (h .trains ht))) hl ha

end SameFleet

/-- R138, R141: the trains that serve a power, as the claims name them. -/
theorem mem_trainsFor_iff (s : State) (net : Int) (x : TrainIx) : x ∈ trainsFor s net ↔
    (0 < net ∧ x.side = .discharge ∨ net < 0 ∧ x.side = .charge) ∧ ∃ ts, ShortestRun s x.side net.natAbs ts ∧ x ∈ ts := by
  have hside : sideOf net = some x.side ↔ 0 < net ∧ x.side = .discharge ∨ net < 0 ∧ x.side = .charge := by
    unfold sideOf
    cases x.side <;> grind
  rw [← hside]
  refine ⟨fun h => ?_, fun ⟨hd, ts, hrun, hx⟩ => ?_⟩
  · obtain ⟨hd, -⟩ := of_mem_trainsFor h
    rw [trainsFor_of_side s hd] at h
    exact ⟨hd, _, leadingTrains_shortestRun s x.side net.natAbs, h⟩
  · rw [trainsFor_of_side s hd, (leadingTrains_shortestRun s x.side net.natAbs).unique hrun]
    exact hx

/-! ### One start ahead (R102, R141) -/

section
variable (s : State) (left : Int) (x y : TrainIx)

theorem startAhead_train : (startAhead left x s).train y =
    if y = x then if startDue s left x then startRequested s x (s.train x) else s.train x else s.train y := by
  have hself : (if y = x then s.train x else s.train y) = s.train y := ite_eq_right_iff.mpr fun hy => by rw [hy]
  unfold startAhead
  cases hdue : startDue s left x with
  | false => simpa using hself.symm
  | true =>
    simp only [and_true, if_true]
    split
    · exact requestStart_train s x y
    next hidle => rw [startRequested_stands fun h => hidle h.1, hself]

/-- R141: whether the start of a train is due is read of its record and the limits. -/
theorem startDue_of_eq {s t : State} {x : TrainIx} (htrain : t.train x = s.train x) (hl : t.limits = s.limits) :
    startDue t left x = startDue s left x := by rw [startDue, startDue, paramsOf, hl, htrain]; rfl

/-- R141: the records after a row's trains have been taken in turn. -/
theorem eachTrain_startAhead_train {xs : List TrainIx} (hn : xs.Nodup) : (eachTrain (startAhead left) xs s).train x =
    if x ∈ xs ∧ startDue s left x then startRequested s x (s.train x) else s.train x := by
  by_cases hx : x ∈ xs
  · have hunseen : ∀ y ∈ xs, y ≠ x → ∀ w, (startAhead left y w).train x = w.train x := fun y _ hy w =>
      (startAhead_train w left y x).trans (if_neg (Ne.symm hy))
    obtain ⟨u, hu, hsight, -, hend⟩ :=
      eachTrain_turn (fun y w => startAhead_quiet w left y) (sees := fun w => w.train x) s hunseen hn hx
    rw [hend (fun w => w.train x) hunseen, startAhead_train, if_pos rfl, startRequested_of_touches hu.touches,
      startDue_of_eq left hsight (hu.touches.get .limits), hsight]
    simp only [hx, true_and]
  · rw [if_neg fun h => hx h.1]
    refine eachTrain_stands (figure := fun w => w.train x) (fun y hy w => ?_) s
    exact (startAhead_train w left y x).trans (if_neg fun heq : x = y => hx (heq ▸ hy))

end

/-- R141: the records after the trains of one row. -/
theorem aheadOfRow_train (w : State × List TrainIx) (r : Row) (x : TrainIx) : (aheadOfRow w r).1.train x =
    if x ∈ trainsFor w.1 r.netKw ∧ startDue w.1 (secondsLeft w.1 r) x then startRequested w.1 x (w.1.train x)
    else w.1.train x := eachTrain_startAhead_train w.1 (secondsLeft w.1 r) x (trainsFor_nodup w.1 r.netKw)

/-! ### The rows ahead, whatever the start limits (R141) -/

/-- R102, R141: after the look-ahead a train stands, or a start has been requested of it. -/
theorem lookAhead_train_or (s : State) (x : TrainIx) :
    (lookAhead s).train x = s.train x ∨ (lookAhead s).train x = startRequested s x (s.train x) := by
  have hrows : ∀ rs : List Row, Touches [.trains, .proj, .port] s (rs.foldl aheadOfRow (s, [])).1
      ∧ ((rs.foldl aheadOfRow (s, [])).1.train x = s.train x
        ∨ (rs.foldl aheadOfRow (s, [])).1.train x = startRequested s x (s.train x)) := fun rs => by
    refine List.foldlRecOn (motive := fun w : State × List TrainIx => Touches [.trains, .proj, .port] s w.1
      ∧ (w.1.train x = s.train x ∨ w.1.train x = startRequested s x (s.train x))) rs aheadOfRow
      ⟨.same _ s, .inl rfl⟩ fun w hw r _ => ?_
    obtain ⟨hframe, htrain⟩ := hw
    refine ⟨hframe.trans (aheadOfRows_touches [r] w), ?_⟩
    rw [aheadOfRow_train, startRequested_of_touches hframe]
    split
    · rcases htrain with htrain | htrain
      · exact .inr (by rw [htrain])
      · exact .inr (by rw [htrain, startRequested_again])
    · exact htrain
  unfold lookAhead; split
  · exact (hrows (rowsAhead s)).2
  · exact .inl rfl

/-- R102: a train of which a start changes nothing stands. -/
theorem lookAhead_train_stands {s : State} {x : TrainIx} (h : startRequested s x (s.train x) = s.train x) :
    (lookAhead s).train x = s.train x := (lookAhead_train_or s x).elim id fun hr => hr.trans h

theorem lookAhead_setpoint (s : State) (x : TrainIx) : ((lookAhead s).train x).setpoint = (s.train x).setpoint := by
  rcases lookAhead_train_or s x with h | h
  · rw [h]
  · rw [h, startRequested_setpoint]

/-- R141: the look-ahead touches no store. -/
theorem lookAhead_frame (s : State) : Touches [.trains, .proj, .port, .dispatch] s (lookAhead s) := by
  unfold lookAhead; split
  · exact (aheadOfRows_touches (rowsAhead s) (s, [])).comp (touches_withDispatch _ _)
  · exact (touches_withDispatch s _).mono (by decide)

/-- R141: of the dispatcher's record the look-ahead writes the trains needed. -/
theorem lookAhead_dispatch (s : State) : ∃ need, (lookAhead s).dispatch = { s.dispatch with need := need } := by
  unfold lookAhead; split
  · have hd : ((rowsAhead s).foldl aheadOfRow (s, [])).1.dispatch = s.dispatch :=
      (aheadOfRows_touches (rowsAhead s) (s, [])).get .dispatch
    exact ⟨_, by rw [State.withDispatch_dispatch, hd]⟩
  · exact ⟨[], rfl⟩

/-! ### The rows ahead, with every start below its limit (R141) -/

/-- R102: NORMAL, with every IDLE train below its start limit. -/
def Eager (s : State) : Prop :=
  s.mode = .normal ∧ ∀ x, (s.train x).state = .idle → (s.train x).startsToday < s.limits.startsMax

/-- R141: an IDLE train is needed by one of some rows that begins no later than its start would end. -/
def DueFor (s : State) (rs : List Row) (x : TrainIx) : Prop :=
  (s.train x).state = .idle ∧ ∃ r ∈ rs, x ∈ trainsFor s r.netKw ∧ startDue s (secondsLeft s r) x = true

/-- From s, of which the rows rs have been taken, t: each train that is due for them is started, and no other moves. -/
structure AheadOf (s : State) (rs : List Row) (t : State) : Prop where
  touches : Touches [.trains, .proj, .port, .dispatch] s t
  starts : ∀ x, DueFor s rs x → t.train x = (s.train x).started (paramsOf s x)
  stands : ∀ x, ¬ DueFor s rs x → t.train x = s.train x

section
variable {s t : State} {rs : List Row}

theorem AheadOf.sameFleet (h : AheadOf s rs t) : SameFleet s t :=
  .of_trains h.touches fun x => by
    by_cases hx : DueFor s rs x
    · refine .inr ?_
      rw [h.starts x hx, hx.1]
      exact ⟨rfl, rfl, by simp [Train.started], by simp⟩
    · exact .inl (h.stands x hx)

theorem AheadOf.eager (h : AheadOf s rs t) (he : Eager s) : Eager t := by
  refine ⟨(h.touches.get .mode).trans he.1, fun x hx => ?_⟩
  rw [show t.limits = s.limits from h.touches.get .limits]
  by_cases hdue : DueFor s rs x
  · rw [h.starts x hdue] at hx
    exact nomatch hx
  · rw [h.stands x hdue] at hx ⊢
    exact he.2 x hx

/-- R141: one row. -/
theorem aheadOfRow_ahead (he : Eager s) (acc : List TrainIx) (r : Row) : AheadOf s [r] (aheadOfRow (s, acc) r).1 := by
  refine ⟨(aheadOfRows_touches [r] (s, acc)).mono (by decide), fun x hx => ?_, fun x hx => ?_⟩
  · obtain ⟨hidle, r', hr', hneeds, hdue⟩ := hx
    obtain rfl := List.mem_singleton.mp hr'
    have hclear := ((availableNow_iff s x).mp (of_mem_trainsFor hneeds).2).2.2
    rw [aheadOfRow_train, if_pos ⟨hneeds, hdue⟩]
    exact startRequested_starts ⟨hidle, he.1, hclear⟩ (he.2 x hidle)
  · rw [aheadOfRow_train]
    split
    next h => exact startRequested_stands fun hs => hx ⟨hs.1, r, List.mem_singleton_self r, h⟩
    · rfl

/-- R141: a row is judged alike before and after rows that leave the train. -/
theorem AheadOf.dueFor_iff (h : AheadOf s rs t) {x : TrainIx} (hx : t.train x = s.train x) (rs' : List Row) :
    DueFor t rs' x ↔ DueFor s rs' x := by
  have hl : t.limits = s.limits := h.touches.get .limits
  have hc : t.clock = s.clock := h.touches.get .clock
  have hleft : ∀ r, secondsLeft t r = secondsLeft s r := fun r => by rw [secondsLeft, secondsLeft, hl, hc]
  simp only [DueFor, hx, h.sameFleet.trainsFor, hleft, startDue_of_eq _ hx hl]

/-- R141: row after row. -/
theorem AheadOf.cons {u : State} {r : Row} (h : AheadOf s [r] t) (k : AheadOf t rs u) : AheadOf s (r :: rs) u := by
  have hcons : ∀ x, DueFor s (r :: rs) x ↔ DueFor s [r] x ∨ DueFor s rs x := fun x => by
    simp only [DueFor, List.exists_mem_cons_iff, List.not_mem_nil, false_and, exists_false, or_false, and_or_left]
  refine ⟨h.touches.trans k.touches, fun x hx => ?_, fun x hx => ?_⟩
  · by_cases hfirst : DueFor s [r] x
    · have hstarted := h.starts x hfirst
      rw [k.stands x (fun hdue => by rw [DueFor, hstarted] at hdue; exact nomatch hdue.1), hstarted]
    · have hstands := h.stands x hfirst
      rw [k.starts x ((h.dueFor_iff hstands rs).mpr (((hcons x).mp hx).resolve_left hfirst)), hstands,
        paramsOf_of_touches h.touches]
  · obtain ⟨hfirst, hrest⟩ := not_or.mp fun hor => hx ((hcons x).mpr hor)
    have hstands := h.stands x hfirst
    rw [k.stands x fun hdue => hrest ((h.dueFor_iff hstands rs).mp hdue), hstands]

end

/-- R141: the rows in turn, with the trains that they need gathered. -/
theorem aheadOfRows_ahead : ∀ (rs : List Row) {s : State} (_ : Eager s) (acc : List TrainIx),
    AheadOf s rs (rs.foldl aheadOfRow (s, acc)).1
      ∧ (rs.foldl aheadOfRow (s, acc)).2 = acc ++ rs.flatMap fun r => trainsFor s r.netKw
  | [], s, _, acc => ⟨⟨.same _ s, fun _ hx => (nomatch hx.2), fun _ _ => rfl⟩, by simp⟩
  | r :: rs, s, he, acc => by
    have hfirst := aheadOfRow_ahead he acc r
    obtain ⟨hrest, hneeds⟩ := aheadOfRows_ahead rs (hfirst.eager he) (acc ++ trainsFor s r.netKw)
    refine ⟨hfirst.cons hrest, hneeds.trans ?_⟩
    simp only [hfirst.sameFleet.trainsFor, List.flatMap_cons, List.append_assoc]

/-- R141: in NORMAL, with every IDLE train below its start limit, the trains that are due for the rows ahead are started. -/
theorem lookAhead_ahead {s : State} (he : Eager s) : AheadOf s (rowsAhead s) (lookAhead s) := by
  obtain ⟨⟨htouches, hstarts, hstands⟩, -⟩ := aheadOfRows_ahead (rowsAhead s) he []
  rw [lookAhead, if_pos he.1]
  exact ⟨htouches.comp (touches_withDispatch _ _), hstarts, hstands⟩

/-- R141: the trains needed are those that serve the rows ahead. -/
theorem lookAhead_need_iff {s : State} (he : Eager s) (x : TrainIx) :
    x ∈ (lookAhead s).dispatch.need ↔ ∃ r ∈ rowsAhead s, x ∈ trainsFor s r.netKw := by
  obtain ⟨-, hneeds⟩ := aheadOfRows_ahead (rowsAhead s) he []
  rw [lookAhead, if_pos he.1, State.withDispatch_dispatch, List.mem_filter, hneeds]
  simp

/-- R141: outside NORMAL no train is needed. -/
theorem lookAhead_need_nil {s : State} (h : s.mode ≠ .normal) : (lookAhead s).dispatch.need = [] := by
  rw [lookAhead, if_neg h]
  rfl

end Sys2Proof.Machine
end

section
/-! SUPPORT. O5 and O11: step 7 of the dispatcher's response, the ramps, on each train (R106, R143). -/

namespace Sys2Proof.Machine

set_option Elab.async false

/-! ### A setpoint toward its goal (R143) -/

theorem rampToward_range {lo hi ramp goal v : Nat} (hgoal : lo ≤ goal ∧ goal ≤ hi) (hv : lo ≤ v ∧ v ≤ hi) :
    lo ≤ rampToward ramp goal v ∧ rampToward ramp goal v ≤ hi := by
  unfold rampToward; split <;> omega

/-- R106: a setpoint that is asked for at or below TP_MIN is TP_MIN. -/
theorem clampNat_low {lo hi n : Nat} (h : n ≤ lo) : clampNat lo hi n = lo :=
  Nat.max_eq_left ((Nat.min_le_right hi n).trans h)

/-- R143: a train at or above a goal of 0 kW falls. -/
theorem rampToward_zero_le (ramp v : Nat) : rampToward ramp 0 v ≤ v := by
  unfold rampToward; split <;> omega

theorem Side.eq_other_of_ne {d e : Side} (h : d ≠ e) : d = e.other := by revert h; cases d <;> cases e <;> decide

/-! ### What step 7 does with one train (R143) -/

section
variable (s : State) (x y : TrainIx)

/-- R106, R143: the setpoint that step 7 asks for, held to the train's limits. -/
def rampedTo : Nat :=
  clampNat (paramsOf s x).tpMin (paramsOf s x).tpMax
    (rampToward (paramsOf s x).ramp (rampGoal s x) (s.train x).setpoint)

/-- R106, R143: a train's record after step 7 has taken it. -/
def ramped : Train :=
  if (s.train x).state = .running ∧ (rampedTo s x = 0 ∨ sideAtZero s x.side.other = true) then
    { s.train x with setpoint := rampedTo s x }
  else s.train x

section
variable {s x}

theorem ramped_stands (h : (s.train x).state ≠ .running) : ramped s x = s.train x := if_neg fun hr => h hr.1

theorem ramped_taken (hrun : (s.train x).state = .running) (h : rampedTo s x = 0 ∨ sideAtZero s x.side.other = true) :
    ramped s x = { s.train x with setpoint := rampedTo s x } := if_pos ⟨hrun, h⟩

theorem ramped_refused (h : ¬ (rampedTo s x = 0 ∨ sideAtZero s x.side.other = true)) : ramped s x = s.train x :=
  if_neg fun hr => h hr.2

end

theorem rampTrain_train : (rampTrain x s).train y = if y = x then ramped s x else s.train y := by
  have hself : (if y = x then s.train x else s.train y) = s.train y := ite_eq_right_iff.mpr fun hy => by rw [hy]
  by_cases hrun : (s.train x).state = .running
  · have hramp : rampTrain x s =
        if (s.train x).state ≠ .running ∨ 0 < rampedTo s x ∧ sideAtZero s x.side.other = false then s
        else s.setTrain x { s.train x with setpoint := rampedTo s x } := if_pos hrun
    by_cases htaken : rampedTo s x = 0 ∨ sideAtZero s x.side.other = true
    · rw [hramp, if_neg (by simpa [hrun, Nat.pos_iff_ne_zero, imp_iff_not_or] using htaken), ramped_taken hrun htaken]
      exact setTrain_train s x y _
    · rw [hramp, if_pos (by simpa [hrun, Nat.pos_iff_ne_zero] using htaken), ramped_refused htaken, hself]
  · rw [rampTrain, if_neg hrun, ramped_stands hrun, hself]

/-- Step 7 writes no field of a train but its setpoint. -/
theorem ramped_eq_setpoint : ∃ kw, ramped s x = { s.train x with setpoint := kw } := by
  unfold ramped; split
  · exact ⟨_, rfl⟩
  · exact ⟨(s.train x).setpoint, rfl⟩

section
variable {s x} (hs : PlantLaw s)
include hs

/-- R106: while a train is above 0 kW the other side is at 0 kW. -/
theorem otherSide_of_power (h : (s.train x).setpoint ≠ 0) : sideAtZero s x.side.other = true := by
  obtain ⟨d, hd⟩ := (oneSideAtPower_iff s).mp hs.2.1
  have hne : d ≠ x.side := fun hside => h ((sideAtZero_iff s d).mp hd x hside.symm)
  exact Side.eq_other_of_ne hne ▸ hd

/-- R106: of a train at 0 kW a setpoint above 0 kW is refused while the other side carries power. -/
theorem ramped_eq_of_plantLaw (hrun : (s.train x).state = .running) : ramped s x =
    if sideAtZero s x.side.other then { s.train x with setpoint := rampedTo s x } else s.train x := by
  cases hzero : sideAtZero s x.side.other with
  | true => exact ramped_taken hrun (.inr hzero)
  | false =>
    have hrest : (s.train x).setpoint = 0 := by
      by_contra h
      exact absurd (hzero.symm.trans (otherSide_of_power hs h)) nofun
    by_cases h0 : rampedTo s x = 0
    · rw [ramped_taken hrun (.inl h0), h0, ← hrest]
      rfl
    · exact ramped_refused (by simp [h0, hzero])

/-- R106: a setpoint toward a goal within the train's limits stays within them. -/
theorem rampedTo_of_range (hrun : (s.train x).state = .running)
    (hgoal : (paramsOf s x).tpMin ≤ rampGoal s x ∧ rampGoal s x ≤ (paramsOf s x).tpMax) :
    rampedTo s x = rampToward (paramsOf s x).ramp (rampGoal s x) (s.train x).setpoint := by
  have hv := hs.1 x
  rw [if_pos hrun] at hv
  obtain ⟨hlo, hhi⟩ := rampToward_range (ramp := (paramsOf s x).ramp) hgoal hv
  exact clampNat_of_range hlo hhi

end

/-! ### Step 7 (R143) -/

/-- R143: what step 7 sees of the train x. -/
def rampSight (s : State) : Train × Dispatch × Bool := (s.train x, s.dispatch, sideAtZero s x.side.other)

theorem rampTrain_unseen {x y : TrainIx} (hy : y ≠ x) (hside : y.side = x.side) :
    rampSight x (rampTrain y s) = rampSight x s := by
  have hother : ∀ z : TrainIx, z.side = x.side.other → (rampTrain y s).train z = s.train z := fun z hz =>
    (rampTrain_train s y z).trans
      (if_neg fun h => Side.ne_other x.side (hside.symm.trans ((congrArg TrainIx.side h).symm.trans hz)))
  have hzero : sideAtZero (rampTrain y s) x.side.other = sideAtZero s x.side.other := by
    rw [Bool.eq_iff_iff, sideAtZero_iff, sideAtZero_iff]
    exact forall₂_congr fun z hz => by rw [hother z hz]
  rw [rampSight, rampSight, hzero, rampTrain_train, if_neg (Ne.symm hy),
    show (rampTrain y s).dispatch = s.dispatch from (rampTrain_touches s y).get .dispatch]

theorem ramped_of_sight {s t : State} {x : TrainIx} (hq : Quiet s t) (h : rampSight x t = rampSight x s) :
    ramped t x = ramped s x := by
  have htrain : t.train x = s.train x := congrArg (·.1) h
  have hdispatch : t.dispatch = s.dispatch := congrArg (·.2.1) h
  have hzero : sideAtZero t x.side.other = sideAtZero s x.side.other := congrArg (·.2.2) h
  have hp : paramsOf t x = paramsOf s x := paramsOf_of_touches hq.touches x
  have hkw : rampedTo t x = rampedTo s x := by rw [rampedTo, rampedTo, rampGoal, rampGoal, htrain, hdispatch, hp]
  rw [ramped, ramped, hkw, htrain, hzero]

/-- R143: the trains of one side. -/
theorem eachTrain_rampTrain_train (d : Side) :
    (eachTrain rampTrain d.trains s).train x = if x.side = d then ramped s x else s.train x := by
  split
  next hx =>
    have hd : ∀ y ∈ d.trains, y.side = x.side := fun y hy => ((Side.mem_trains y d).mp hy).trans hx.symm
    obtain ⟨u, hu, hsight, -, hend⟩ := eachTrain_turn (fun y w => rampTrain_quiet w y) (sees := rampSight x) s
      (fun y hy hyx w => rampTrain_unseen w hyx (hd y hy)) (Side.trains_nodup d) ((Side.mem_trains x d).mpr hx)
    rw [hend (fun w => w.train x) fun y _ hyx w => (rampTrain_train w y x).trans (if_neg (Ne.symm hyx)), rampTrain_train,
      if_pos rfl, ramped_of_sight hu hsight]
  next hx =>
    refine eachTrain_stands (figure := fun w => w.train x) (fun y hy w => ?_) s
    exact (rampTrain_train w y x).trans (if_neg fun heq : x = y => hx (heq ▸ (Side.mem_trains y d).mp hy))

/-- R143, log 22: the compressors are taken first. -/
theorem rampTrains_eq : eachTrain rampTrain TrainIx.all s =
    eachTrain rampTrain Side.discharge.trains (eachTrain rampTrain Side.charge.trains s) :=
  List.foldl_append (f := fun u z => rampTrain z u) (l := Side.charge.trains) (l' := Side.discharge.trains)

/-- R143: the state in which the ramp of a train is judged: that before step 7 for a compressor, and that which the compressors' ramps
leave for an expander. -/
def rampStart (s : State) : State :=
  match x.side with
  | .charge => s
  | .discharge => eachTrain rampTrain Side.charge.trains s

/-- R143: what stands between the start of step 7 and a train's ramp. -/
theorem rampStart_stands : (rampStart x s).train x = s.train x ∧ Touches [.trains] s (rampStart x s) := by
  unfold rampStart; split
  · exact ⟨rfl, .same _ s⟩
  next hx =>
    refine ⟨?_, eachTrain_touches s _ (fun y w => rampTrain_touches w y) _⟩
    rw [eachTrain_rampTrain_train, if_neg (by rw [hx]; decide)]

/-- R143: the records after step 7. -/
theorem rampTrains_train : (eachTrain rampTrain TrainIx.all s).train x = ramped (rampStart x s) x := by
  rw [rampTrains_eq, eachTrain_rampTrain_train]
  unfold rampStart
  cases hx : x.side with
  | charge => rw [if_neg (by decide), eachTrain_rampTrain_train, if_pos hx]
  | discharge => rw [if_pos rfl]

theorem rampStart_plantLaw {s : State} (hs : PlantLaw s) : PlantLaw (rampStart x s) := by
  unfold rampStart; split
  · exact hs
  · exact Sequenced.eachTrain plantLaw_sequenced.rampTrain _ s hs

theorem rampStart_charge {s : State} {x : TrainIx} (h : x.side = .charge) : rampStart x s = s := by
  unfold rampStart; rw [h]

/-- R143: the expanders are judged against the compressors as step 7 leaves them. -/
theorem rampStart_otherSide {x : TrainIx} (h : x.side = .discharge) : sideAtZero (rampStart x s) x.side.other = true ↔
    ∀ y : TrainIx, y.side = x.side.other → ((eachTrain rampTrain TrainIx.all s).train y).setpoint = 0 := by
  rw [sideAtZero_iff, rampTrains_eq]
  refine forall₂_congr fun y hy => ?_
  have hcharge : y.side = .charge := by rw [hy, h]; rfl
  have hy' := eachTrain_rampTrain_train (eachTrain rampTrain Side.charge.trains s) y .discharge
  rw [if_neg (by rw [hcharge]; decide)] at hy'
  rw [hy', rampStart, h]

/-- Step 7 leaves the trains that may be chosen. -/
theorem rampTrains_sameFleet : SameFleet s (eachTrain rampTrain TrainIx.all s) := by
  have hframe : Touches [.trains] s (eachTrain rampTrain TrainIx.all s) :=
    eachTrain_touches s _ (fun y w => rampTrain_touches w y) _
  have htrain : ∀ x, ∃ kw, (eachTrain rampTrain TrainIx.all s).train x = { s.train x with setpoint := kw } := fun x => by
    obtain ⟨kw, hkw⟩ := ramped_eq_setpoint (rampStart x s) x
    exact ⟨kw, by rw [rampTrains_train, hkw, (rampStart_stands s x).1]⟩
  refine ⟨fun x => ?_, fun x => ?_, hframe.get .limits⟩
  · obtain ⟨kw, hkw⟩ := htrain x
    rw [Bool.eq_iff_iff, availableNow_iff, availableNow_iff, hkw, hframe.get .account]
  · obtain ⟨kw, hkw⟩ := htrain x
    rw [hkw]

end

end Sys2Proof.Machine
end

section
/-! SUPPORT. O5 and O11: the dispatcher's response step by step (R135), and the second in which it is made alone (log 24). -/

namespace Sys2Proof.Machine

set_option Elab.async false

/-! ### The steps of the response (R135) -/

section
variable (s : State)

/-- R138: the trains committed in this second. -/
def commitOf : List TrainIx := trainsFor s (limitedTarget s).1

/-- R135: the response up to step 2, with the target and the commit set formed. -/
def commitFormed : State := formCommit (formTarget s)

/-- R135: the response up to step 3. -/
def unwantedReleased : State := releaseUnwanted (commitFormed s)

/-- R135: the response up to step 4. -/
def membersLoaded : State := eachTrain startOrLoad (unwantedReleased s).dispatch.commit (unwantedReleased s)

/-- R135: the response up to step 6. -/
def sharesFormed : State := computeShares (runningMembers (commitFormed s)) (lookAhead (membersLoaded s))

theorem dispatched_steps : dispatched s = eachTrain rampTrain TrainIx.all (sharesFormed s) := rfl

/-! ### Steps 1 and 2 (R136 to R138) -/

theorem commitFormed_touches : Touches [.dispatch] s (commitFormed s) :=
  (formTarget_touches s).trans (formCommit_touches _)

theorem commitFormed_dispatch : (commitFormed s).dispatch = { (formTarget s).dispatch with commit := commitOf s } := by
  have hcommit : trainsFor (formTarget s) (limitedTarget s).1 = commitOf s :=
    (SameFleet.of_touches (formTarget_touches s)).trainsFor _
  rw [← hcommit]
  rfl

theorem commitFormed_commit : (commitFormed s).dispatch.commit = commitOf s := by rw [commitFormed_dispatch]

/-- R138: the members are of one side, that of the target. -/
theorem commitOf_oneSide : ∃ d, ∀ y ∈ commitOf s, y.side = d := by
  cases hd : sideOf (limitedTarget s).1 with
  | none => exact ⟨.charge, fun y hy => absurd ((of_mem_trainsFor hy).1.symm.trans hd) nofun⟩
  | some d => exact ⟨d, fun y hy => Option.some.inj ((of_mem_trainsFor hy).1.symm.trans hd)⟩

theorem commitOf_nodup : (commitOf s).Nodup := trainsFor_nodup s _

/-- R137: in SAFE there is no member. -/
theorem mode_of_mem_commitOf {s : State} {x : TrainIx} (hx : x ∈ commitOf s) : s.mode ≠ .safe := fun hsafe => by
  have htarget : (limitedTarget s).1 = 0 := by
    unfold limitedTarget liveLimits limitSafe
    split
    · rfl
    next h => exact not_not.mp fun hne => h ⟨hsafe, hne⟩
  have hside := (of_mem_trainsFor hx).1
  rw [htarget] at hside
  exact nomatch hside

/-! ### Step 3 (R139) -/

theorem unwantedReleased_quiet : Quiet (commitFormed s) (unwantedReleased s) := releaseUnwanted_quiet _

/-- What steps 2 and 3 leave of the state. -/
theorem unwantedReleased_touches : Touches quietFields s (unwantedReleased s) :=
  (commitFormed_touches s).comp (unwantedReleased_quiet s).touches

theorem unwantedReleased_commit : (unwantedReleased s).dispatch.commit = commitOf s :=
  (releaseUnwanted_commit _).trans (commitFormed_commit s)

variable {s} in
/-- R139: the trains that step 3 releases. -/
theorem commitFormed_releases_iff {x : TrainIx} : releases (commitFormed s) x = true ↔ x ∉ commitOf s ∧
    ((s.train x).state = .running ∧ (s.train x).setpoint = (paramsOf s x).tpMin
      ∨ (s.train x).state = .ready ∧ x ∉ s.dispatch.need ∧ s.dispatch.hold.get x = false) := by
  rw [releases_iff, commitFormed_commit]
  rfl

variable {s} in
theorem unwantedReleased_train_released {x : TrainIx} (h : releases (commitFormed s) x = true) :
    (unwantedReleased s).train x = (s.train x).released (paramsOf s x) x :=
  (releaseUnwanted_train _ x).trans (if_pos h)

variable {s} in
theorem unwantedReleased_train_stands {x : TrainIx} (h : ¬ releases (commitFormed s) x = true) :
    (unwantedReleased s).train x = s.train x := (releaseUnwanted_train _ x).trans (if_neg h)

/-! ### Step 4 (R140) -/

theorem membersLoaded_quiet : Quiet (unwantedReleased s) (membersLoaded s) :=
  eachTrain_quiet _ _ (fun y w => startOrLoad_quiet w y) _

theorem membersLoaded_touches : Touches quietFields s (membersLoaded s) :=
  (unwantedReleased_touches s).trans (membersLoaded_quiet s).touches

theorem membersLoaded_frame : Touches trainFields (unwantedReleased s) (membersLoaded s) :=
  eachTrain_touches _ _ (fun y w => startOrLoad_frame w y) _

/-- R140: the records after step 4. -/
theorem membersLoaded_train (x : TrainIx) : (membersLoaded s).train x =
    if x ∈ commitOf s then enlisted (unwantedReleased s) x else (unwantedReleased s).train x := by
  obtain ⟨d, hd⟩ := commitOf_oneSide s
  rw [membersLoaded, unwantedReleased_commit]
  exact eachTrain_startOrLoad_train (commitOf_nodup s) hd x

/-- The rows of the projection stand: a walk that is restarted has written none. -/
theorem rows_apart (rows : List Row) : Apart fun s => s.proj.rows = rows where
  ignores s t h hs := (congrArg Projection.rows (h.get .proj)).trans hs
  raise _ _ hs := hs
  mask _ _ hs := hs
  basisChangeAt n s hs := by
    have hcount : ∀ u : State, (countRestart u).proj.rows = u.proj.rows := fun u => by
      unfold countRestart; split
      · rfl
      all_goals
        split
        · rfl
        · rw [answerInFlight_proj]; rfl
    by_cases h : s.proj.state = .unavailable
    · obtain heq | heq := basisChangeAt_unavailable n h <;> rw [heq] <;> exact hs
    · rw [basisChangeAt_counts h]
      exact (hcount (startWalkAt n s)).trans hs

theorem membersLoaded_rows : (membersLoaded s).proj.rows = s.proj.rows := by
  have hrows := rows_apart s.proj.rows
  have hformed : (commitFormed s).proj.rows = s.proj.rows := congrArg Projection.rows ((commitFormed_touches s).get .proj)
  have hreleased : (unwantedReleased s).proj.rows = s.proj.rows :=
    hrows.touches (Apart.eachTrain hrows.releaseTrain TrainIx.all _ hformed) (clearHolds_touches _)
  exact Apart.eachTrain hrows.startOrLoad _ _ hreleased

/-! ### Steps 5 and 6 (R141, R142) -/

theorem sharesFormed_touches : Touches [.dispatch] (lookAhead (membersLoaded s)) (sharesFormed s) :=
  computeShares_touches _ _

theorem sharesFormed_train (x : TrainIx) : (sharesFormed s).train x = (lookAhead (membersLoaded s)).train x :=
  congrArg (fun ts : Trains => ts.train.get x) ((sharesFormed_touches s).get .trains)

theorem lookAhead_loaded_touches : Touches quietFields s (lookAhead (membersLoaded s)) :=
  (membersLoaded_touches s).comp (lookAhead_frame _)

/-- R139, R141: of the dispatcher's record as step 3 leaves it steps 4 and 5 write the trains needed. -/
theorem lookAhead_loaded_dispatch : ∃ need,
    (lookAhead (membersLoaded s)).dispatch = { (unwantedReleased s).dispatch with need := need } := by
  obtain ⟨need, hneed⟩ := lookAhead_dispatch (membersLoaded s)
  have hloaded : (membersLoaded s).dispatch = (unwantedReleased s).dispatch := (membersLoaded_frame s).get .dispatch
  exact ⟨need, by rw [hneed, hloaded]⟩

theorem lookAhead_loaded_target : (lookAhead (membersLoaded s)).dispatch.target = (limitedTarget s).1
    ∧ (lookAhead (membersLoaded s)).dispatch.dir = sideOf (limitedTarget s).1 := by
  obtain ⟨_, hd⟩ := lookAhead_loaded_dispatch s
  obtain ⟨_, _, _, _, hreleased⟩ := (unwantedReleased_quiet s).figures
  rw [hd, hreleased]
  exact ⟨rfl, rfl⟩

/-- R142: a share is formed of the target and the limits. -/
theorem shareOf_of_eq {s t : State} (htarget : t.dispatch.target = s.dispatch.target) (hl : t.limits = s.limits)
    (members : List TrainIx) (x : TrainIx) : shareOf t members x = shareOf s members x := by
  have hcap : tpMax t = tpMax s := by funext y; rw [tpMax, hl, tpMax]
  have hquotient : ∀ n, quotient t n = quotient s n := fun n => by funext y; rw [quotient, quotient, htarget, hcap]
  rw [shareOf, shareOf, hcap, hquotient, htarget, paramsOf, hl]
  rfl

/-- R142: the members that were RUNNING when the commit set was formed share the target. -/
theorem sharesFormed_share (x : TrainIx) : (sharesFormed s).dispatch.share.get x =
    if x ∈ runningMembers (commitFormed s) then shareOf (commitFormed s) (runningMembers (commitFormed s)) x else 0 := by
  have hframe : Touches quietFields (commitFormed s) (lookAhead (membersLoaded s)) :=
    ((unwantedReleased_quiet s).touches.trans (membersLoaded_quiet s).touches).comp (lookAhead_frame _)
  rw [sharesFormed, computeShares, State.withDispatch_dispatch]
  simp only [PerTrain.get_ofFn, List.contains_iff_mem,
    shareOf_of_eq (t := lookAhead (membersLoaded s)) (s := commitFormed s) (lookAhead_loaded_target s).1 (hframe.get .limits)]

/-- R142: of the dispatcher's record step 6 writes the shares. -/
theorem sharesFormed_dispatch : ∃ share,
    (sharesFormed s).dispatch = { (lookAhead (membersLoaded s)).dispatch with share := share } := by
  rw [sharesFormed, computeShares, State.withDispatch_dispatch]
  exact ⟨_, rfl⟩

theorem sharesFormed_target : (sharesFormed s).dispatch.target = (limitedTarget s).1
    ∧ (sharesFormed s).dispatch.dir = sideOf (limitedTarget s).1 := by
  obtain ⟨_, hshared⟩ := sharesFormed_dispatch s
  rw [hshared]
  exact lookAhead_loaded_target s

theorem sharesFormed_commit : (sharesFormed s).dispatch.commit = commitOf s := by
  obtain ⟨_, hshared⟩ := sharesFormed_dispatch s
  obtain ⟨_, hd⟩ := lookAhead_loaded_dispatch s
  rw [hshared, hd]
  exact unwantedReleased_commit s

theorem sharesFormed_hold : (sharesFormed s).dispatch.hold = (unwantedReleased s).dispatch.hold := by
  obtain ⟨_, hshared⟩ := sharesFormed_dispatch s
  obtain ⟨_, hd⟩ := lookAhead_loaded_dispatch s
  rw [hshared, hd]

theorem sharesFormed_need : (sharesFormed s).dispatch.need = (lookAhead (membersLoaded s)).dispatch.need := by
  obtain ⟨_, hshared⟩ := sharesFormed_dispatch s
  rw [hshared]

/-! ### Step 7 and the response (R143, log 24) -/

theorem dispatched_frame : Touches [.trains] (sharesFormed s) (dispatched s) :=
  eachTrain_touches _ _ (fun y w => rampTrain_touches w y) _

theorem dispatched_train (x : TrainIx) : (dispatched s).train x = ramped (rampStart x (sharesFormed s)) x :=
  rampTrains_train (sharesFormed s) x

variable {s} in
/-- R143: a train that is not RUNNING after the look-ahead stands through the steps that follow. -/
theorem dispatched_train_stands {x : TrainIx} (h : ((lookAhead (membersLoaded s)).train x).state ≠ .running) :
    (dispatched s).train x = (lookAhead (membersLoaded s)).train x := by
  have hstart : (rampStart x (sharesFormed s)).train x = (lookAhead (membersLoaded s)).train x :=
    (rampStart_stands (sharesFormed s) x).1.trans (sharesFormed_train s x)
  rw [dispatched_train, ramped_stands (by rwa [hstart]), hstart]

end

/-- R142, R146: the metering writes the energies of the dispatcher's record alone. -/
theorem Dispatch.of_metered {a b : Dispatch} {sched del : Int} (h : a = { b with schedKj := sched, delKj := del }) :
    a.target = b.target ∧ a.dir = b.dir ∧ a.commit = b.commit ∧ a.share = b.share ∧ a.need = b.need ∧ a.hold = b.hold := by
  subst h
  exact ⟨rfl, rfl, rfl, rfl, rfl, rfl⟩

/-- With the other blocks' responses put off, a second with nothing due is the dispatcher's and the clock's (log 24): the dispatcher's
meters, the receiver's records and the clock apart it leaves the state that the steps on the trains leave. -/
theorem exec_dispatchSecond_alone {s : State} (hs : inReset s = false) (hd : s.due = []) :
    ∃ d t, exec (.secondEvent ⟨[], othersThan .dispatchSecond⟩) s = .next t
      ∧ Touches [.dispatch, .orders, .clock, .due] (dispatched (s.withDue d)) t
      ∧ (∃ sched del, t.dispatch = { (dispatched (s.withDue d)).dispatch with schedKj := sched, delKj := del })
      ∧ Touches [.dispatch, .trains, .heat, .orders, .proj, .port, .clock, .due] s t := by
  obtain ⟨d, e, halone⟩ := secondNow_alone (p := .dispatchSecond) rfl (by decide) hd
  change secondNow _ _ = (clockSecond (dispatchSecond (s.withDue d))).withDue e at halone
  have hframe : Touches [.clock, .due] (dispatchSecond (s.withDue d))
      ((clockSecond (dispatchSecond (s.withDue d))).withDue e) :=
    (clockSecond_touches _).comp (touches_withDue _ e)
  have htouches : Touches [.dispatch, .trains, .heat, .orders, .proj, .port, .clock, .due] s
      (dispatchSecond (s.withDue d)) :=
    (touches_withDue s d).comp (dispatchSecond_touches _)
  refine ⟨d, _, congrArg Host.Outcome.next ((unlessHeld_taken s _ hs).trans halone),
    (meterSecond_touches (dispatched (s.withDue d))).comp hframe, ?_,
    htouches.comp hframe⟩
  exact ⟨_, _, (hframe.get .dispatch).trans (meterSecond_dispatch (dispatched (s.withDue d)))⟩

end Sys2Proof.Machine
end

section
/-! SUPPORT. O11: the trains after a second of the dispatcher in which no train stands at its start limit (R141). -/

namespace Sys2Proof.Machine

set_option Elab.async false

section
variable {s : State} {x : TrainIx}

/-- Step 3 releases no IDLE train. -/
theorem unwantedReleased_idle (hidle : (s.train x).state = .idle) : (unwantedReleased s).train x = s.train x := by
  refine unwantedReleased_train_stands fun h => ?_
  obtain ⟨-, ⟨hrun, -⟩ | ⟨hready, -⟩⟩ := commitFormed_releases_iff.mp h
  · exact absurd (hidle.symm.trans hrun) nofun
  · exact absurd (hidle.symm.trans hready) nofun

/-- R140: an IDLE train that is no member stands through steps 3 and 4, and outside NORMAL every IDLE train does. -/
theorem membersLoaded_idle (hidle : (s.train x).state = .idle) (hx : x ∈ commitOf s → s.mode ≠ .normal) :
    (membersLoaded s).train x = s.train x := by
  have heq := unwantedReleased_idle hidle
  rw [membersLoaded_train]
  split
  next hmem =>
    have hmode : (unwantedReleased s).mode = s.mode := (unwantedReleased_touches s).get .mode
    have hload : ¬ loadTaken (unwantedReleased s) x = true := fun h =>
      absurd ((loadTaken_iff.mp h).1.symm.trans ((congrArg Train.state heq).trans hidle)) nofun
    rw [enlisted, if_neg hload, startRequested_stands fun h => hx hmem (hmode.symm.trans h.2.1), heq]
  · exact heq

/-- R102: outside NORMAL every IDLE train stands through the second. -/
theorem dispatched_idle_stands (hidle : (s.train x).state = .idle) (hm : s.mode ≠ .normal) :
    (dispatched s).train x = s.train x := by
  have hmode : (membersLoaded s).mode = s.mode := (membersLoaded_touches s).get .mode
  have hloaded := membersLoaded_idle hidle fun _ => hm
  have hahead : (lookAhead (membersLoaded s)).train x = s.train x :=
    (lookAhead_train_stands (startRequested_stands fun h => hm (hmode.symm.trans h.2.1))).trans hloaded
  rw [dispatched_train_stands (by rw [hahead, hidle]; decide), hahead]

section
variable (hlimit : ∀ y, (s.train y).startsToday < s.limits.startsMax)
include hlimit

/-- Where no train stands at its start limit one that is IDLE after step 4 is as it was. -/
theorem membersLoaded_of_idle (hidle : ((membersLoaded s).train x).state = .idle) :
    (membersLoaded s).train x = s.train x := by
  have hreleased : ((unwantedReleased s).train x).state = .idle → (unwantedReleased s).train x = s.train x := fun h => by
    by_cases hr : releases (commitFormed s) x = true
    · rw [unwantedReleased_train_released hr] at h
      unfold Train.released at h
      split at h <;> exact nomatch h
    · exact unwantedReleased_train_stands hr
  rw [membersLoaded_train] at hidle ⊢
  split at hidle
  next hx =>
    rw [if_pos hx]
    unfold enlisted at hidle ⊢
    split at hidle
    · exact nomatch hidle
    next hload =>
      rw [if_neg hload]
      by_cases hs : Startable (unwantedReleased s) x ((unwantedReleased s).train x)
      · have hbelow : ((unwantedReleased s).train x).startsToday < (unwantedReleased s).limits.startsMax := by
          rw [hreleased hs.1, show (unwantedReleased s).limits = s.limits from (unwantedReleased_touches s).get .limits]
          exact hlimit x
        rw [startRequested_starts hs hbelow] at hidle
        exact nomatch hidle
      · rw [startRequested_stands hs] at hidle ⊢
        exact hreleased hidle
  next hx =>
    rw [if_neg hx]
    exact hreleased hidle

/-- R141: before the look-ahead every IDLE train is below its start limit. -/
theorem membersLoaded_eager (hm : s.mode = .normal) : Eager (membersLoaded s) := by
  refine ⟨((membersLoaded_touches s).get .mode).trans hm, fun x hx => ?_⟩
  rw [membersLoaded_of_idle hlimit hx, show (membersLoaded s).limits = s.limits from (membersLoaded_touches s).get .limits]
  exact hlimit x

end

/-- R138, R141: steps 6 and 7 leave the trains to choose from. -/
theorem dispatched_sameFleet (s : State) : SameFleet (lookAhead (membersLoaded s)) (dispatched s) :=
  (SameFleet.of_touches (computeShares_touches _ _)).trans (rampTrains_sameFleet (sharesFormed s))

theorem mem_rowsAhead_loaded (s : State) (r : Row) : r ∈ rowsAhead (membersLoaded s) ↔
    r ∈ (s.proj.rows.drop 1).take 4 ∧ s.clock.n < r.interval ∧ r.interval ≤ s.clock.n + 4 := by
  rw [rowsAhead, membersLoaded_rows, show (membersLoaded s).clock = s.clock from (membersLoaded_touches s).get .clock]
  simp only [List.mem_filter, Bool.and_eq_true, decide_eq_true_eq]

/-- R141: an IDLE train that has come so far as it was is due for a row that needs it and begins no later than its start would end. -/
theorem dueFor_loaded_iff (hidle : (s.train x).state = .idle) (hstands : (membersLoaded s).train x = s.train x)
    (rs : List Row) : DueFor (membersLoaded s) rs x ↔ ∃ r ∈ rs, x ∈ trainsFor (membersLoaded s) r.netKw
      ∧ ((s.limits.lInt : Int) - s.clock.s) + ((r.interval : Int) - s.clock.n - 1) * s.limits.lInt
        ≤ (startTime (paramsOf s x) (s.train x).startClass : Int) := by
  have htouches := membersLoaded_touches s
  simp only [DueFor, startDue, secondsLeft, hstands, hidle, true_and, decide_eq_true_eq, paramsOf_of_touches htouches,
    show (membersLoaded s).limits = s.limits from htouches.get .limits,
    show (membersLoaded s).clock = s.clock from htouches.get .clock]

end

end Sys2Proof.Machine
end

section
open Sys2Proof Sys2Proof.Machine

set_option Elab.async false

/-- Settles O11: the trains to choose from stand from the look-ahead to the end of the second, so that the runs of the claim are those
that the look-ahead takes. -/
theorem dispatcherLooksAhead : Obligations.DispatcherLooksAhead := by
  intro s hs hd hlimit ahead left
  obtain ⟨d, t, hexec, hframe, ⟨sched, del, hdispatch⟩, -⟩ := exec_dispatchSecond_alone hs hd
  have htrain : ∀ x, t.train x = (dispatched (s.withDue d)).train x := fun x =>
    congrArg (fun ts : Trains => ts.train.get x) (hframe.get .trains)
  have hrecord : (dispatched (s.withDue d)).dispatch = (sharesFormed (s.withDue d)).dispatch :=
    (dispatched_frame (s.withDue d)).get .dispatch
  rw [hrecord] at hdispatch
  obtain ⟨-, -, hcommit, -, hneed, -⟩ := Dispatch.of_metered hdispatch
  replace hcommit := hcommit.trans (sharesFormed_commit (s.withDue d))
  replace hneed := hneed.trans (sharesFormed_need (s.withDue d))
  have hmode : (membersLoaded (s.withDue d)).mode = s.mode := (membersLoaded_touches (s.withDue d)).get .mode
  refine ⟨t, hexec, fun hm => ⟨?_, fun x hidle => ?_⟩, fun hm => ?_⟩
  · rw [hneed]
    exact lookAhead_need_nil (by rwa [hmode])
  · rw [htrain]
    exact dispatched_idle_stands (s := s.withDue d) hidle hm
  have he : Eager (membersLoaded (s.withDue d)) := membersLoaded_eager hlimit hm
  have hahead := lookAhead_ahead he
  have hfleet : SameFleet (membersLoaded (s.withDue d)) t :=
    (hahead.sameFleet.trans (dispatched_sameFleet _)).trans (.of_touches hframe)
  have hneeds : ∀ (r : Row) (x : TrainIx), x ∈ trainsFor (membersLoaded (s.withDue d)) r.netKw ↔
      (0 < r.netKw ∧ x.side = .discharge ∨ r.netKw < 0 ∧ x.side = .charge)
        ∧ ∃ ts, ShortestRun t x.side r.netKw.natAbs ts ∧ x ∈ ts := fun r x => by
    simp only [hfleet.shortestRun_iff]
    exact mem_trainsFor_iff _ _ _
  refine ⟨fun x => ?_, fun x hidle hx => ?_⟩
  · rw [hneed, lookAhead_need_iff he]
    simp only [mem_rowsAhead_loaded, hneeds]
    rfl
  · have hstands : (membersLoaded (s.withDue d)).train x = s.train x :=
      membersLoaded_idle (s := s.withDue d) hidle fun hmem => absurd (hcommit ▸ hmem) hx
    have hdue := dueFor_loaded_iff (s := s.withDue d) hidle hstands (rowsAhead (membersLoaded (s.withDue d)))
    simp only [mem_rowsAhead_loaded, hneeds, startTime_eq] at hdue
    have hfinal : ∀ {v : Train}, (lookAhead (membersLoaded (s.withDue d))).train x = v → v.state ≠ .running →
        t.train x = v := fun hv hrun => by
      rw [htrain, dispatched_train_stands (by rwa [hv]), hv]
    refine ⟨fun h => ?_, fun h => ?_⟩
    · obtain ⟨r, hr, hneeded, hleft⟩ := h
      have hstarted := hahead.starts x (hdue.mpr ⟨r, hr, hneeded, hleft⟩)
      rw [hfinal hstarted nofun, hstands, Train.started, startTime_eq,
        paramsOf_of_touches (membersLoaded_touches (s.withDue d))]
      rfl
    · have hstood := hahead.stands x fun hr => h (by
        obtain ⟨r, hr, hneeded, hleft⟩ := hdue.mp hr
        exact ⟨r, hr, hneeded, hleft⟩)
      rw [hfinal hstood (by rw [hstands, hidle]; decide), hstands]

end

section
/-! SUPPORT. O5: each train after the dispatcher's response (R139, R140, R143), its mark and the stores. -/

namespace Sys2Proof.Machine

set_option Elab.async false

section
variable {s : State} {x : TrainIx}

/-! ### The law through the steps (R106) -/

theorem membersLoaded_plantLaw (hs : PlantLaw s) : PlantLaw (membersLoaded s) :=
  have hP := plantLaw_sequenced
  have hreleased : PlantLaw (unwantedReleased s) :=
    hP.touches (Sequenced.eachTrain hP.releaseTrain TrainIx.all _ (hP.touches hs (commitFormed_touches s))) (clearHolds_touches _)
  Sequenced.eachTrain hP.startOrLoad _ _ hreleased

theorem sharesFormed_plantLaw (hs : PlantLaw s) : PlantLaw (sharesFormed s) :=
  plantLaw_sequenced.touches (plantLaw_sequenced.lookAhead _ (membersLoaded_plantLaw hs)) (sharesFormed_touches s)

/-! ### What the steps leave of the notices and the stores -/

theorem membersLoaded_to_dispatched (s : State) : Quiet (membersLoaded s) (dispatched s) :=
  ((lookAhead_quiet _).trans (computeShares_quiet _ _)).trans (eachTrain_quiet _ _ (fun y w => rampTrain_quiet w y) _)

/-- Steps 5 to 7 leave the stores. -/
theorem dispatched_heat (s : State) : (dispatched s).heat = (membersLoaded s).heat := by
  rw [show (dispatched s).heat = (sharesFormed s).heat from (dispatched_frame s).get .heat,
    show (sharesFormed s).heat = _ from (sharesFormed_touches s).get .heat]
  exact (lookAhead_frame (membersLoaded s)).get .heat

/-! ### A side that carries no power (R105, R106) -/

/-- A train is at 0 kW, or RUNNING at TP_MIN. -/
def AtRest (s : State) (y : TrainIx) : Prop :=
  (s.train y).setpoint = 0 ∨ (s.train y).state = .running ∧ (s.train y).setpoint = (paramsOf s y).tpMin

/-- Every train of the other side is at 0 kW, or RUNNING at TP_MIN. -/
def OtherSideAtRest (s : State) (x : TrainIx) : Prop := ∀ y ∈ x.side.other.trains, AtRest s y

/-- R138: the trains of a member's other side are no members. -/
theorem not_mem_commitOf_of_other {y : TrainIx} (hx : x ∈ commitOf s) (hy : y.side = x.side.other) : y ∉ commitOf s := fun hmem => by
  obtain ⟨d, hd⟩ := commitOf_oneSide s
  exact Side.ne_other x.side (((hd x hx).trans (hd y hmem).symm).trans hy)

/-- R139: a member stands through step 3. -/
theorem unwantedReleased_member (hx : x ∈ commitOf s) : (unwantedReleased s).train x = s.train x :=
  unwantedReleased_train_stands fun h => (commitFormed_releases_iff.mp h).1 hx

section
variable (hs : SetpointLaw s)
include hs

/-- R106: a READY train is at 0 kW. -/
theorem setpoint_of_ready (hready : (s.train x).state = .ready) : (s.train x).setpoint = 0 := by
  have hx := hs x
  rwa [if_neg (by rw [hready]; decide)] at hx

/-- R139: step 3 brings those trains that are no members and stand at TP_MIN to 0 kW. -/
theorem unwantedReleased_setpoint_iff (hx : x ∉ commitOf s) : ((unwantedReleased s).train x).setpoint = 0 ↔ AtRest s x := by
  by_cases hr : releases (commitFormed s) x = true
  · refine ⟨fun _ => ?_, fun _ => by rw [unwantedReleased_train_released hr, Train.released_setpoint]⟩
    obtain ⟨-, hrun | ⟨hready, -⟩⟩ := commitFormed_releases_iff.mp hr
    · exact .inr hrun
    · exact .inl (setpoint_of_ready hs hready)
  · rw [unwantedReleased_train_stands hr]
    exact ⟨.inl, fun h => h.resolve_right fun hrun => hr (commitFormed_releases_iff.mpr ⟨hx, .inl hrun⟩)⟩

/-- R139: after step 3 the other side of a member carries power exactly where one of its trains did above TP_MIN. -/
theorem unwantedReleased_otherSide (hx : x ∈ commitOf s) :
    sideAtZero (unwantedReleased s) x.side.other = true ↔ OtherSideAtRest s x := by
  rw [sideAtZero_iff]
  simp only [OtherSideAtRest, Side.mem_trains]
  exact forall₂_congr fun y hy => unwantedReleased_setpoint_iff hs (not_mem_commitOf_of_other hx hy)

/-- R105, R140: a member is loaded exactly where it is READY and the other side carries no power. -/
theorem loadTaken_member_iff (hx : x ∈ commitOf s) :
    loadTaken (unwantedReleased s) x = true ↔ (s.train x).state = .ready ∧ OtherSideAtRest s x := by
  have hmode : (unwantedReleased s).mode ≠ .safe := by
    rw [show (unwantedReleased s).mode = s.mode from (unwantedReleased_touches s).get .mode]
    exact mode_of_mem_commitOf hx
  rw [loadTaken_iff, unwantedReleased_otherSide hs hx, unwantedReleased_member hx]
  exact and_congr_right fun _ => and_iff_right hmode

/-- R140, R141: steps 4 to 6 leave the other side of a member at its setpoints. -/
theorem sharesFormed_otherSide (hx : x ∈ commitOf s) :
    sideAtZero (sharesFormed s) x.side.other = true ↔ OtherSideAtRest s x := by
  rw [← unwantedReleased_otherSide hs hx, sideAtZero_iff, sideAtZero_iff]
  refine forall₂_congr fun y hy => ?_
  rw [sharesFormed_train, lookAhead_setpoint, membersLoaded_train, if_neg (not_mem_commitOf_of_other hx hy)]

end

/-! ### The records before the ramps (R139 to R141) -/

/-- R141: the look-ahead moves no train but an IDLE one. -/
theorem lookAhead_loaded_train {v : Train} (h : (membersLoaded s).train x = v) (hv : v.state ≠ .idle) :
    (lookAhead (membersLoaded s)).train x = v := by
  refine (lookAhead_train_stands (startRequested_stands fun hs => hv ?_)).trans h
  rw [← h]
  exact hs.1

/-- R139: a train that is released. -/
theorem lookAhead_released (h : releases (commitFormed s) x = true) :
    (lookAhead (membersLoaded s)).train x = (s.train x).released (paramsOf s x) x := by
  refine lookAhead_loaded_train ?_ (by unfold Train.released; split <;> exact nofun)
  rw [membersLoaded_train, if_neg (commitFormed_releases_iff.mp h).1, unwantedReleased_train_released h]

/-- R139 to R141: steps 3 to 5 leave a train that is not IDLE, not released, and not loaded. -/
theorem lookAhead_loaded_stands (hidle : (s.train x).state ≠ .idle) (hr : ¬ releases (commitFormed s) x = true)
    (hload : x ∈ commitOf s → ¬ loadTaken (unwantedReleased s) x = true) :
    (lookAhead (membersLoaded s)).train x = s.train x := by
  have hrecord := unwantedReleased_train_stands hr
  refine lookAhead_loaded_train ?_ hidle
  rw [membersLoaded_train]
  split
  next hx =>
    rw [enlisted, if_neg (hload hx), startRequested_stands fun h => hidle (by rw [← hrecord]; exact h.1), hrecord]
  · exact hrecord

/-- R105, R140: a member that is loaded. -/
theorem lookAhead_loaded_loads (hx : x ∈ commitOf s) (h : loadTaken (unwantedReleased s) x = true) :
    (lookAhead (membersLoaded s)).train x = (s.train x).loaded (paramsOf s x) := by
  refine lookAhead_loaded_train ?_ nofun
  rw [membersLoaded_train, if_pos hx, enlisted, if_pos h, unwantedReleased_member hx,
    paramsOf_of_touches (unwantedReleased_touches s)]

/-! ### Trains that carry no power (R107, R108, R139) -/

theorem dispatched_released (h : releases (commitFormed s) x = true) :
    (dispatched s).train x = (s.train x).released (paramsOf s x) x := by
  have hahead := lookAhead_released h
  have hdown : ((s.train x).released (paramsOf s x) x).state ≠ .running := by
    unfold Train.released; split <;> exact nofun
  rw [dispatched_train_stands (by rwa [hahead]), hahead]

theorem dispatched_stands (hidle : (s.train x).state ≠ .idle) (hrun : (s.train x).state ≠ .running)
    (hr : ¬ releases (commitFormed s) x = true) (hload : x ∈ commitOf s → ¬ loadTaken (unwantedReleased s) x = true) :
    (dispatched s).train x = s.train x := by
  have hahead := lookAhead_loaded_stands hidle hr hload
  rw [dispatched_train_stands (by rwa [hahead]), hahead]

/-- R139: what step 3 releases is RUNNING or READY. -/
theorem not_releases_of_state (hrun : (s.train x).state ≠ .running) (hready : (s.train x).state ≠ .ready) :
    ¬ releases (commitFormed s) x = true := fun h =>
  (commitFormed_releases_iff.mp h).2.elim (fun h => hrun h.1) fun h => hready h.1

/-- Every train that is neither IDLE nor READY nor RUNNING stands. -/
theorem dispatched_other (hidle : (s.train x).state ≠ .idle) (hready : (s.train x).state ≠ .ready)
    (hrun : (s.train x).state ≠ .running) : (dispatched s).train x = s.train x :=
  dispatched_stands hidle hrun (not_releases_of_state hrun hready) fun hx h =>
    hready (by rw [← unwantedReleased_member hx]; exact (loadTaken_iff.mp h).1)

/-! ### IDLE members (R102, R140) -/

section
variable (hidle : (s.train x).state = .idle) (hx : x ∈ commitOf s)
include hidle hx

/-- R140: of an IDLE member a start is requested. -/
theorem membersLoaded_requested : (membersLoaded s).train x = startRequested s x (s.train x) := by
  have hload : ¬ loadTaken (unwantedReleased s) x = true := fun h => by
    have hready := (loadTaken_iff.mp h).1
    rw [unwantedReleased_member hx, hidle] at hready
    exact nomatch hready
  rw [membersLoaded_train, if_pos hx, enlisted, if_neg hload, unwantedReleased_member hx,
    startRequested_of_touches (unwantedReleased_touches s)]

/-- R102, R141: the request is not made again. -/
theorem dispatched_requested : (dispatched s).train x = startRequested s x (s.train x) := by
  have hloaded := membersLoaded_requested hidle hx
  have hahead : (lookAhead (membersLoaded s)).train x = startRequested s x (s.train x) := by
    refine (lookAhead_train_stands ?_).trans hloaded
    rw [startRequested_of_touches (membersLoaded_touches s), hloaded, startRequested_again]
  have hdown : (startRequested s x (s.train x)).state ≠ .running := by
    unfold startRequested; split
    · split
      · rw [hidle]; decide
      · exact nofun
    · rw [hidle]; decide
  rw [dispatched_train_stands (by rwa [hahead]), hahead]

/-- R138: a member is not START_LIMITED, and no excursion stands against its side. -/
theorem startable_member (hm : s.mode = .normal) : Startable s x (s.train x) ∧ (s.train x).startLimited = false := by
  obtain ⟨-, hlimited, hclear⟩ := (availableNow_iff s x).mp (of_mem_trainsFor hx).2
  exact ⟨⟨hidle, hm, hclear⟩, hlimited⟩

theorem dispatched_starts (hm : s.mode = .normal) (hl : (s.train x).startsToday < s.limits.startsMax) :
    (dispatched s).train x = (s.train x).started (paramsOf s x) := by
  rw [dispatched_requested hidle hx, startRequested_starts (startable_member hidle hx hm).1 hl]

theorem dispatched_limited (hm : s.mode = .normal) (hl : s.limits.startsMax ≤ (s.train x).startsToday) :
    (dispatched s).train x = { s.train x with startLimited := true } := by
  rw [dispatched_requested hidle hx, startRequested_limited (startable_member hidle hx hm).1 hl]

end

/-- R102, R105: a member that is loaded, or becomes START_LIMITED, is announced. -/
theorem dispatched_latched (hx : x ∈ commitOf s) (h : loadTaken (unwantedReleased s) x = true
      ∨ Startable s x (s.train x) ∧ s.limits.startsMax ≤ (s.train x).startsToday ∧ (s.train x).startLimited = false) :
    Latched .trainEvent (dispatched s) := by
  obtain ⟨d, hd⟩ := commitOf_oneSide s
  have htouches := unwantedReleased_touches s
  have hloaded := eachTrain_startOrLoad_latched (s := unwantedReleased s) (commitOf_nodup s) hd hx (by
    rwa [unwantedReleased_member hx, Startable, show (unwantedReleased s).mode = s.mode from htouches.get .mode,
      show (unwantedReleased s).account = s.account from htouches.get .account,
      show (unwantedReleased s).limits = s.limits from htouches.get .limits])
  refine (membersLoaded_to_dispatched s).port.2 _ ?_
  rwa [membersLoaded, unwantedReleased_commit]

/-- R107: a train that is unloaded is announced. -/
theorem dispatched_latched_of_unload (h : releases (commitFormed s) x = true)
    (hshort : (s.train x).heldShort (paramsOf s x) = true) : Latched .trainEvent (dispatched s) :=
  ((membersLoaded_quiet s).trans (membersLoaded_to_dispatched s)).port.2 _ (releaseUnwanted_latched h hshort)

/-! ### The mark that holds a READY train (R139, log 9) -/

theorem sharesFormed_hold_get (x : TrainIx) : (sharesFormed s).dispatch.hold.get x =
    if releases (commitFormed s) x then (s.train x).heldShort (paramsOf s x)
    else s.dispatch.hold.get x && decide ((s.train x).state = .ready) := by
  rw [sharesFormed_hold]
  exact releaseUnwanted_hold (commitFormed s) x

theorem sharesFormed_hold_unloaded (h : releases (commitFormed s) x = true)
    (hshort : (s.train x).heldShort (paramsOf s x) = true) : (sharesFormed s).dispatch.hold.get x = true := by
  rw [sharesFormed_hold_get, if_pos h, hshort]

theorem sharesFormed_hold_ready (hready : (s.train x).state = .ready) :
    (sharesFormed s).dispatch.hold.get x = s.dispatch.hold.get x := by
  rw [sharesFormed_hold_get]
  split
  next h =>
    rcases (commitFormed_releases_iff.mp h).2 with ⟨hrun, -⟩ | ⟨-, -, hhold⟩
    · exact absurd (hready.symm.trans hrun) nofun
    · simp [hhold, Train.heldShort, hready]
  · simp [hready]

theorem sharesFormed_hold_cleared (hready : (s.train x).state ≠ .ready)
    (hkept : ¬ ((s.train x).state = .running ∧ x ∉ commitOf s ∧ (s.train x).setpoint = (paramsOf s x).tpMin
      ∧ (s.train x).runTime < (paramsOf s x).minRun)) : (sharesFormed s).dispatch.hold.get x = false := by
  rw [sharesFormed_hold_get]
  split
  next h =>
    obtain ⟨hx, ⟨-, hmin⟩ | ⟨hr, -⟩⟩ := commitFormed_releases_iff.mp h
    · exact Bool.eq_false_iff.mpr fun hshort => by
        obtain ⟨hrun, htime⟩ := Train.heldShort_iff.mp hshort
        exact hkept ⟨hrun, hx, hmin, htime⟩
    · exact absurd hr hready
  · simp [hready]

/-! ### The shares (R142) -/

theorem runningMembers_commitFormed (s : State) :
    runningMembers (commitFormed s) = (commitOf s).filter fun x => decide ((s.train x).state = .running) := by
  rw [runningMembers, commitFormed_commit]
  rfl

theorem mem_runningMembers_commitFormed : x ∈ runningMembers (commitFormed s) ↔ x ∈ commitOf s ∧ (s.train x).state = .running := by
  rw [runningMembers_commitFormed, List.mem_filter, decide_eq_true_iff]

/-- R142: the share of a member that was RUNNING lies within the train's limits. -/
theorem sharesFormed_share_range (hlim : (paramsOf s x).tpMin ≤ (paramsOf s x).tpMax) (hx : x ∈ commitOf s)
    (hrun : (s.train x).state = .running) : (paramsOf s x).tpMin ≤ (sharesFormed s).dispatch.share.get x
      ∧ (sharesFormed s).dispatch.share.get x ≤ (paramsOf s x).tpMax := by
  rw [sharesFormed_share, if_pos (mem_runningMembers_commitFormed.mpr ⟨hx, hrun⟩)]
  exact clampNat_range hlim _

/-- R142: a member that was not RUNNING has no share. -/
theorem sharesFormed_share_zero (hrun : (s.train x).state ≠ .running) : (sharesFormed s).dispatch.share.get x = 0 := by
  rw [sharesFormed_share, if_neg fun h => hrun (mem_runningMembers_commitFormed.mp h).2]

end

end Sys2Proof.Machine
end

section
/-! SUPPORT. O5: the ramps of the RUNNING trains (R106, R143), and the trains after the response, state by state. -/

namespace Sys2Proof.Machine

set_option Elab.async false

section
variable {s : State} {x : TrainIx}

/-! ### A RUNNING train before its ramp (R143) -/

/-- R143: the goal of a train that was RUNNING. -/
def goalOf (s : State) (x : TrainIx) : Nat :=
  if x ∈ commitOf s then (sharesFormed s).dispatch.share.get x else (paramsOf s x).tpMin

theorem sharesFormed_params (s : State) (x : TrainIx) : paramsOf (rampStart x (sharesFormed s)) x = paramsOf s x := by
  rw [paramsOf_of_touches (rampStart_stands (sharesFormed s) x).2, paramsOf_of_touches (sharesFormed_touches s),
    paramsOf_of_touches (lookAhead_loaded_touches s)]

theorem rampStart_goal (s : State) (x : TrainIx) : rampGoal (rampStart x (sharesFormed s)) x = goalOf s x := by
  rw [rampGoal, goalOf, sharesFormed_params,
    show (rampStart x (sharesFormed s)).dispatch = (sharesFormed s).dispatch from
      (rampStart_stands (sharesFormed s) x).2.get .dispatch, sharesFormed_commit]
  simp only [List.contains_iff_mem]

/-- R143: a train that stands until step 7 is ramped from where it was. -/
theorem dispatched_train_of_stands {v : Train} (h : (lookAhead (membersLoaded s)).train x = v) :
    (rampStart x (sharesFormed s)).train x = v :=
  (rampStart_stands (sharesFormed s) x).1.trans ((sharesFormed_train s x).trans h)

section
variable (hs : PlantLaw s)
include hs

/-- R106: the limits of a RUNNING train hold its setpoint between them. -/
theorem setpoint_of_running (hrun : (s.train x).state = .running) :
    (paramsOf s x).tpMin ≤ (s.train x).setpoint ∧ (s.train x).setpoint ≤ (paramsOf s x).tpMax := by
  have hx := hs.1 x
  rwa [if_pos hrun] at hx

theorem goalOf_range (hrun : (s.train x).state = .running) :
    (paramsOf s x).tpMin ≤ goalOf s x ∧ goalOf s x ≤ (paramsOf s x).tpMax := by
  have hlim : (paramsOf s x).tpMin ≤ (paramsOf s x).tpMax :=
    (setpoint_of_running hs hrun).1.trans (setpoint_of_running hs hrun).2
  unfold goalOf
  split
  next hx => exact sharesFormed_share_range hlim hx hrun
  · exact ⟨Nat.le_refl _, hlim⟩

/-- R106, R143: a RUNNING train that is not released is ramped toward its goal where the other side carries no power, and else
stands. -/
theorem dispatched_running (hrun : (s.train x).state = .running) (hr : ¬ releases (commitFormed s) x = true) :
    (dispatched s).train x = if sideAtZero (rampStart x (sharesFormed s)) x.side.other
      then { s.train x with setpoint := rampToward (paramsOf s x).ramp (goalOf s x) (s.train x).setpoint }
      else s.train x := by
  have hload : x ∈ commitOf s → ¬ loadTaken (unwantedReleased s) x = true := fun hx h => by
    have hready := (loadTaken_iff.mp h).1
    rw [unwantedReleased_member hx, hrun] at hready
    exact nomatch hready
  have htrain := dispatched_train_of_stands (lookAhead_loaded_stands (by rw [hrun]; decide) hr hload)
  have hlaw := rampStart_plantLaw x (sharesFormed_plantLaw hs)
  have hstart : ((rampStart x (sharesFormed s)).train x).state = .running := by rwa [htrain]
  rw [dispatched_train, ramped_eq_of_plantLaw hlaw hstart, rampedTo_of_range hlaw hstart (by
    rw [sharesFormed_params, rampStart_goal]
    exact goalOf_range hs hrun), sharesFormed_params, rampStart_goal, htrain]

/-- R143: a RUNNING train that is no member falls to TP_MIN. -/
theorem dispatched_falls (hrun : (s.train x).state = .running) (hx : x ∉ commitOf s)
    (hmin : (s.train x).setpoint ≠ (paramsOf s x).tpMin) : (dispatched s).train x =
      { s.train x with setpoint := max (paramsOf s x).tpMin ((s.train x).setpoint - (paramsOf s x).ramp) } := by
  have hr : ¬ releases (commitFormed s) x = true := fun h => by
    rcases (commitFormed_releases_iff.mp h).2 with ⟨-, h⟩ | ⟨h, -⟩
    · exact hmin h
    · exact absurd (hrun.symm.trans h) nofun
  have habove : (paramsOf s x).tpMin < (s.train x).setpoint :=
    Nat.lt_of_le_of_ne (setpoint_of_running hs hrun).1 (Ne.symm hmin)
  have htrain := dispatched_train_of_stands (lookAhead_loaded_stands (by rw [hrun]; decide) hr fun h => absurd h hx)
  have hside : sideAtZero (rampStart x (sharesFormed s)) x.side.other = true :=
    otherSide_of_power (rampStart_plantLaw x (sharesFormed_plantLaw hs)) (by rw [htrain]; omega)
  rw [dispatched_running hs hrun hr, if_pos hside, goalOf, if_neg hx, rampToward, if_neg (Nat.not_le.mpr habove)]

/-- R143: a train that is no member and carries no power before step 7 carries none after it. -/
theorem dispatched_zero (hx : x ∉ commitOf s) (h0 : ((sharesFormed s).train x).setpoint = 0) :
    ((dispatched s).train x).setpoint = 0 := by
  have hlaw := rampStart_plantLaw x (sharesFormed_plantLaw hs)
  have hset : ((rampStart x (sharesFormed s)).train x).setpoint = 0 := by rw [(rampStart_stands (sharesFormed s) x).1, h0]
  rw [dispatched_train]
  by_cases hrun : ((rampStart x (sharesFormed s)).train x).state = .running
  · have hrange := setpoint_of_running hlaw hrun
    have hgoal : rampGoal (rampStart x (sharesFormed s)) x = (paramsOf (rampStart x (sharesFormed s)) x).tpMin := by
      rw [rampStart_goal, goalOf, if_neg hx, sharesFormed_params]
    have hkw : rampedTo (rampStart x (sharesFormed s)) x = 0 := by
      rw [rampedTo_of_range hlaw hrun (by omega), hgoal, rampToward]
      split <;> omega
    rw [ramped_taken hrun (.inl hkw)]
    exact hkw
  · rw [ramped_stands hrun, hset]

/-- R143: when a member is taken the other side carries no power where its trains came to rest in step 3; where they did not a
compressor waits, and an expander is ramped if the compressors' ramps have brought them to 0 kW. -/
theorem rampStart_otherSide_iff (hx : x ∈ commitOf s) :
    sideAtZero (rampStart x (sharesFormed s)) x.side.other = true ↔ OtherSideAtRest s x
      ∨ x.side = .discharge ∧ ∀ y ∈ x.side.other.trains, ((dispatched s).train y).setpoint = 0 := by
  have hrest := sharesFormed_otherSide hs.1 hx
  simp only [Side.mem_trains]
  cases hd : x.side with
  | charge =>
    rw [rampStart_charge hd, ← hd, hrest, or_iff_left]
    rintro ⟨h, -⟩
    rw [hd] at h
    exact nomatch h
  | discharge =>
    have hend := rampStart_otherSide (sharesFormed s) hd
    rw [hd] at hend
    rw [hend, ← dispatched_steps]
    refine ⟨fun h => .inr ⟨rfl, h⟩, fun h => h.elim (fun hquiet y hy => ?_) (·.2)⟩
    have hy' : y.side = x.side.other := by rw [hd]; exact hy
    exact dispatched_zero hs (not_mem_commitOf_of_other hx hy') ((sideAtZero_iff _ _).mp (hrest.mpr hquiet) y hy')

section
variable (hrun : (s.train x).state = .running) (hx : x ∈ commitOf s)
include hrun hx

theorem dispatched_member : (dispatched s).train x = if sideAtZero (rampStart x (sharesFormed s)) x.side.other
    then { s.train x with
      setpoint := rampToward (paramsOf s x).ramp ((sharesFormed s).dispatch.share.get x) (s.train x).setpoint }
    else s.train x := by
  rw [dispatched_running hs hrun fun h => (commitFormed_releases_iff.mp h).1 hx, goalOf, if_pos hx]

theorem dispatched_member_ramps (hquiet : OtherSideAtRest s x) : (dispatched s).train x = { s.train x with
    setpoint := rampToward (paramsOf s x).ramp ((sharesFormed s).dispatch.share.get x) (s.train x).setpoint } := by
  rw [dispatched_member hs hrun hx, if_pos ((rampStart_otherSide_iff hs hx).mpr (.inl hquiet))]

theorem dispatched_member_waits (hquiet : ¬ OtherSideAtRest s x) : (dispatched s).train x =
    if x.side = .discharge ∧ ∀ y ∈ x.side.other.trains, ((dispatched s).train y).setpoint = 0 then { s.train x with
      setpoint := rampToward (paramsOf s x).ramp ((sharesFormed s).dispatch.share.get x) (s.train x).setpoint }
    else s.train x :=
  (dispatched_member hs hrun hx).trans
    (if_congr ((rampStart_otherSide_iff hs hx).trans (or_iff_right hquiet)) rfl rfl)

end

/-- R105, R143: a member that is loaded in this second stays at TP_MIN. -/
theorem dispatched_loads (hready : (s.train x).state = .ready) (hx : x ∈ commitOf s) (hquiet : OtherSideAtRest s x) :
    (dispatched s).train x = (s.train x).loaded (paramsOf s x) := by
  have hload := (loadTaken_member_iff hs.1 hx).mpr ⟨hready, hquiet⟩
  have htrain := dispatched_train_of_stands (lookAhead_loaded_loads hx hload)
  have hlaw := rampStart_plantLaw x (sharesFormed_plantLaw hs)
  have hstart : ((rampStart x (sharesFormed s)).train x).state = .running := by rw [htrain]; rfl
  have hkw : rampedTo (rampStart x (sharesFormed s)) x = (paramsOf s x).tpMin := by
    rw [rampedTo, sharesFormed_params, rampStart_goal, goalOf, if_pos hx,
      sharesFormed_share_zero (by rw [hready]; decide), htrain]
    exact clampNat_low (rampToward_zero_le _ _)
  rw [dispatched_train, ramped_eq_of_plantLaw hlaw hstart, hkw, htrain]
  exact ite_self _

end

/-! ### READY trains (R107, R139, R140) -/

section
variable (hready : (s.train x).state = .ready)
include hready

theorem dispatched_ready_stops (hx : x ∉ commitOf s) (hneed : x ∉ s.dispatch.need) (hhold : s.dispatch.hold.get x = false) :
    (dispatched s).train x = (s.train x).stopped (paramsOf s x) x := by
  rw [dispatched_released (commitFormed_releases_iff.mpr ⟨hx, .inr ⟨hready, hneed, hhold⟩⟩), Train.released_stopped]
  simp [Train.heldShort, hready]

theorem dispatched_ready_stands (hr : ¬ releases (commitFormed s) x = true)
    (hload : x ∈ commitOf s → ¬ loadTaken (unwantedReleased s) x = true) : (dispatched s).train x = s.train x :=
  dispatched_stands (by rw [hready]; decide) (by rw [hready]; decide) hr hload

theorem dispatched_ready_kept (hx : x ∉ commitOf s) (hwanted : x ∈ s.dispatch.need ∨ s.dispatch.hold.get x = true) :
    (dispatched s).train x = s.train x := by
  refine dispatched_ready_stands hready (fun h => ?_) fun h => absurd h hx
  rcases (commitFormed_releases_iff.mp h).2 with ⟨hrun, -⟩ | ⟨-, hneed, hhold⟩
  · exact absurd (hready.symm.trans hrun) nofun
  · exact hwanted.elim hneed fun h => absurd (h.symm.trans hhold) nofun

theorem dispatched_ready_waits (hs : SetpointLaw s) (hx : x ∈ commitOf s) (hquiet : ¬ OtherSideAtRest s x) :
    (dispatched s).train x = s.train x :=
  dispatched_ready_stands hready (fun h => (commitFormed_releases_iff.mp h).1 hx) fun _ h =>
    hquiet ((loadTaken_member_iff hs hx).mp h).2

end

/-! ### RUNNING trains at TP_MIN that are no members (R107, R108, R139) -/

section
variable (hrun : (s.train x).state = .running) (hx : x ∉ commitOf s) (hmin : (s.train x).setpoint = (paramsOf s x).tpMin)
include hrun hx hmin

theorem releases_of_atTpMin : releases (commitFormed s) x = true := commitFormed_releases_iff.mpr ⟨hx, .inl ⟨hrun, hmin⟩⟩

theorem dispatched_running_stops (hlong : (paramsOf s x).minRun ≤ (s.train x).runTime) :
    (dispatched s).train x = (s.train x).stopped (paramsOf s x) x := by
  rw [dispatched_released (releases_of_atTpMin hrun hx hmin), Train.released_stopped]
  simpa [Train.heldShort, hrun] using hlong

theorem dispatched_running_unloads (hshort : (s.train x).runTime < (paramsOf s x).minRun) :
    (dispatched s).train x = (s.train x).unloaded (paramsOf s x)
      ∧ (sharesFormed s).dispatch.hold.get x = true ∧ Latched .trainEvent (dispatched s) := by
  have hr := releases_of_atTpMin hrun hx hmin
  have hheld := Train.heldShort_iff.mpr ⟨hrun, hshort⟩
  exact ⟨(dispatched_released hr).trans (Train.released_unloaded hheld), sharesFormed_hold_unloaded hr hheld,
    dispatched_latched_of_unload hr hheld⟩

end

/-! ### The commit set and its shares (R138, R142) -/

theorem commitOf_zero (h : (limitedTarget s).1 = 0) : commitOf s = [] := by rw [commitOf, h, trainsFor_zero]

theorem commitOf_shortestRun {d : Side} (h : sideOf (limitedTarget s).1 = some d) :
    ShortestRun s d (limitedTarget s).1.natAbs (commitOf s) := by
  rw [commitOf, trainsFor_of_side s h]
  exact leadingTrains_shortestRun s d _

/-! ### The stores (R31, R108, R139, R140) -/

/-- R30, R139: of the trains on the stores, which are RUNNING, step 3 takes those that are no members and stand at TP_MIN. -/
theorem unwantedReleased_store (hlists : StoreListLaw s) (i : StoreIx) : (unwantedReleased s).store i =
    { s.store i with trains := (s.store i).trains.filter fun y =>
        !(decide ((s.train y).state = .running) && decide ((s.train y).setpoint = (paramsOf s y).tpMin)
          && !(commitOf s).contains y) } := by
  refine (releaseUnwanted_store (commitFormed s) i).trans
    (congrArg (fun l => { s.store i with trains := l }) (List.filter_congr fun y hy => congrArg not ?_))
  have hrun : (s.train y).state = .running := hlists.1 i y hy
  rw [Bool.eq_iff_iff, commitFormed_releases_iff]
  simp [hrun, and_comm]

/-- R105, R140: the members that are loaded. -/
theorem loadTaken_member (hs : SetpointLaw s) (hx : x ∈ commitOf s) : loadTaken (unwantedReleased s) x =
    (decide ((s.train x).state = .ready) && x.side.other.trains.all fun y => decide ((s.train y).setpoint = 0)
      || decide ((s.train y).state = .running) && decide ((s.train y).setpoint = (paramsOf s y).tpMin)) := by
  rw [Bool.eq_iff_iff, loadTaken_member_iff hs hx]
  simp only [OtherSideAtRest, AtRest, Bool.and_eq_true, decide_eq_true_iff, List.all_eq_true, Bool.or_eq_true]

/-- R31, R140: in step 4 the members that are loaded are put on their stores in turn. -/
theorem membersLoaded_placed {w : State} {loads : TrainIx → Bool} (hl : s.limits = w.limits)
    (h : ∀ x ∈ commitOf s, loadTaken (unwantedReleased s) x = loads x) :
    Through Placed ((commitOf s).filter loads) (w.withHeat (unwantedReleased s).heat) (w.withHeat (membersLoaded s).heat) := by
  obtain ⟨d, hd⟩ := commitOf_oneSide s
  have hlimits : (unwantedReleased s).limits = s.limits := (unwantedReleased_touches s).get .limits
  have hplaced := eachTrain_startOrLoad_placed w (commitOf s) (unwantedReleased s) (commitOf_nodup s)
    (fun x hx => ⟨hd x hx, h x hx⟩) (hlimits.trans hl)
  rwa [membersLoaded, unwantedReleased_commit]

end

end Sys2Proof.Machine
end

section
open Sys2Proof Sys2Proof.Machine

set_option Elab.async false

/-- Settles O5: the second leaves the trains, the stores and the choices that the steps of the response leave. -/
theorem dispatcherMovesTrains : Obligations.DispatcherMovesTrains := by
  intro s hs hd hlaw
  obtain ⟨d, t, hexec, hframe, ⟨sched, del, hdispatch⟩, htouches⟩ := exec_dispatchSecond_alone hs hd
  have hu : PlantLaw (s.withDue d) := plantLaw_sequenced.touches hlaw (touches_withDue s d)
  have htrains : t.trains = (dispatched (s.withDue d)).trains := hframe.get .trains
  have htrain : t.train = (dispatched (s.withDue d)).train := funext fun x =>
    congrArg (fun ts : Trains => ts.train.get x) htrains
  have hheat : t.heat = (dispatched (s.withDue d)).heat := hframe.get .heat
  have hquiet : Quiet (formTarget (s.withDue d)) (dispatched (s.withDue d)) := dispatched_quiet _
  have hlatched : Latched .trainEvent (dispatched (s.withDue d)) → Latched .trainEvent t := fun h => by
    rwa [Latched, show t.port = (dispatched (s.withDue d)).port from hframe.get .port]
  rw [show (dispatched (s.withDue d)).dispatch = (sharesFormed (s.withDue d)).dispatch from
    (dispatched_frame (s.withDue d)).get .dispatch] at hdispatch
  obtain ⟨htarget, hdir, hcommit, hshare, -, hhold⟩ := Dispatch.of_metered hdispatch
  replace htarget := htarget.trans (sharesFormed_target (s.withDue d)).1
  replace hdir := hdir.trans (sharesFormed_target (s.withDue d)).2
  replace hcommit := hcommit.trans (sharesFormed_commit (s.withDue d))
  refine ⟨t, hexec, ?_⟩
  rw [htrain, htrains, hheat, htarget, hdir, hcommit, hshare, hhold]
  refine ⟨commitOf_zero, fun side => commitOf_shortestRun, ?_, ?_, ?_, ?_, ?_, htouches⟩
  · intro members total q rest x
    rw [sharesFormed_share, runningMembers_commitFormed]
    rfl
  · intro x v l commits quiet stopped
    refine ⟨?_, ?_, ?_, ?_, ?_, ?_, ?_, ?_, ?_, ?_, ?_, ?_, ?_, ?_, ?_⟩
    · exact fun hrun hx hmin hlong => dispatched_running_stops (s := s.withDue d) hrun hx hmin hlong
    · intro hrun hx hmin hshort
      obtain ⟨hrecord, hheld, hlatch⟩ := dispatched_running_unloads (s := s.withDue d) hrun hx hmin hshort
      exact ⟨hrecord, hheld, hlatched hlatch⟩
    · exact fun hrun hx hmin => dispatched_falls (s := s.withDue d) hu hrun hx hmin
    · exact fun hrun hx hq => dispatched_member_ramps (s := s.withDue d) hu hrun hx hq
    · exact fun hrun hx hq => dispatched_member_waits (s := s.withDue d) hu hrun hx hq
    · exact fun hready hx hneed hkept => dispatched_ready_stops (s := s.withDue d) hready hx hneed hkept
    · exact fun hready hx hwanted => dispatched_ready_kept (s := s.withDue d) hready hx hwanted
    · intro hready hx hq
      have hload := (loadTaken_member_iff hu.1 hx).mpr ⟨hready, hq⟩
      exact ⟨dispatched_loads (s := s.withDue d) hu hready hx hq, hlatched (dispatched_latched hx (.inl hload))⟩
    · exact fun hready hx hq => dispatched_ready_waits (s := s.withDue d) hready hu.1 hx hq
    · exact fun hready => sharesFormed_hold_ready (s := s.withDue d) hready
    · exact fun hready hkept => sharesFormed_hold_cleared (s := s.withDue d) hready hkept
    · intro hidle hx hmode hl
      rw [dispatched_starts (s := s.withDue d) hidle hx hmode hl, Train.started, startTime_eq]
      rfl
    · intro hidle hx hmode hl
      obtain ⟨hstartable, hlimited⟩ := startable_member (s := s.withDue d) hidle hx hmode
      exact ⟨dispatched_limited hidle hx hmode hl,
        hlatched (dispatched_latched hx (.inr ⟨hstartable, hl, hlimited⟩))⟩
    · exact fun hidle hmode => dispatched_idle_stands (s := s.withDue d) hidle hmode
    · exact fun hidle hready hrun => dispatched_other (s := s.withDue d) hidle hready hrun
  · intro hlists atMin leaves loads
    refine ⟨s.withHeat (unwantedReleased (s.withDue d)).heat, s.withHeat (membersLoaded (s.withDue d)).heat,
      unwantedReleased_store (s := s.withDue d) hlists, touches_withHeat s _,
      membersLoaded_placed (s := s.withDue d) rfl fun y hy => loadTaken_member (s := s.withDue d) hu.1 hy, fun i => ?_, ?_⟩
    · exact congrArg (fun h : Heat => h.store.get i) (hheat.trans (dispatched_heat (s.withDue d)))
    · exact hquiet.summary
  · exact hquiet.timers.1
  · exact hquiet.timers.2

end
